-- ==== Sys2Proof/Word.lean ====
section
/-! DEFINITION. The value types of 00_scope.md rule R8: `u8` and `u16`, both unsigned. -/

namespace Sys2Proof

/-- `u8` (rule R8). -/
abbrev Byte := BitVec 8

/-- `u16` (rule R8). -/
abbrev Word := BitVec 16

end Sys2Proof
end

