-- ==== Sys2Proof/Syntax.lean ====
section
/-! DEFINITION. What the host can present to the block: a command word with operand ports (30_encoding.md rules
R60 and R63), and the commands themselves, one constructor per row of spec/opcode_table.json, each carrying the
operands its rule names. -/

namespace Sys2Proof

/-- The ten function codes of the closed set of 30_encoding.md rule R65, by their short names. -/
inductive Fc where
  | rc | rdi | rhr | rir | wsc | wsr | res | diag | wmc | wmr
  deriving DecidableEq, Repr

/-- The operand ports of 30_encoding.md rule R63 (`OPS.X` of the pseudocode). -/
structure Ports where
  unit  : Byte
  addr  : Word
  count : Word
  state : Bool
  value : Word
  bits  : List Bool
  words : List Word
  bytes : List Byte
  rxcrc : Word
  rx    : List Byte
  deriving DecidableEq, Repr

/-- Ports with nothing on them: what a command leaves on the ports its rule does not name. -/
def Ports.idle : Ports :=
  { unit := 0, addr := 0, count := 0, state := false, value := 0, bits := [], words := [], bytes := [],
    rxcrc := 0, rx := [] }

/-- A command as the host presents it: the command word CW together with the ports (30_encoding.md rule R60). -/
structure Command where
  cw    : Word
  ports : Ports
  deriving DecidableEq, Repr

/-- Why a presented command is no command of the block: a port holds a value outside its type
(30_encoding.md rule R63: BITS and WORDS have length 0 to 65535). -/
inductive DecodeError where
  | bitsTooLong
  | wordsTooLong
  deriving DecidableEq, Repr

/-- The commands, one constructor per opcode-table row. Bits of the command word that the command ignores are kept
(`arg`, `low`), so that decoding loses nothing (log entry 7). -/
inductive Instr where
  | crcInit (arg : Byte)
  | crcUpdate (data : Byte)
  | crcCompute (arg : Byte) (bytes : List Byte)
  | crcVerify (arg : Byte) (bytes : List Byte) (rxcrc : Word)
  | resolveRC (count : Word)
  | resolveRDI (count : Word)
  | resolveRHR
  | resolveRIR (count : Word)
  | resolveWSC
  | resolveWSR
  | resolveRES
  | resolveDIAG (bytes : List Byte)
  | resolveWMC (bits : List Bool)
  | resolveWMR (words : List Word)
  | resolveInvalid (fc : Byte)
  | encodeRC (unit : Byte) (addr count : Word)
  | encodeRDI (unit : Byte) (addr count : Word)
  | encodeRHR (unit : Byte) (addr : Word)
  | encodeRIR (unit : Byte) (addr count : Word)
  | encodeWSC (unit : Byte) (addr : Word) (state : Bool)
  | encodeWSR (unit : Byte) (addr value : Word)
  | encodeRES (unit : Byte)
  | encodeDIAG (unit : Byte) (bytes : List Byte)
  | encodeWMC (unit : Byte) (addr : Word) (bits : List Bool)
  | encodeWMR (unit : Byte) (addr : Word) (words : List Word)
  | encodeInvalid (fc : Byte)
  | decodeRC (rx : List Byte)
  | decodeRDI (rx : List Byte)
  | decodeRHR (rx : List Byte)
  | decodeRIR (rx : List Byte)
  | decodeWSC (rx : List Byte)
  | decodeWSR (rx : List Byte)
  | decodeRES (rx : List Byte)
  | decodeDIAG (rx : List Byte)
  | decodeWMC (rx : List Byte)
  | decodeWMR (rx : List Byte)
  | decodeInvalid (fc : Byte)
  | abortTransportError
  | abortTimeout
  | abortInvalidResponseLength
  | abortIllegal (code : Byte)
  | reset (arg : Byte)
  | illegalOpc00 (arg : Byte)
  | illegalOpc0A0B (low : BitVec 9)
  | illegalOpc0C0F (low : BitVec 10)
  | illegalOpc101F (low : BitVec 12)
  | illegalOpc203F (low : BitVec 13)
  | illegalOpc407F (low : BitVec 14)
  | illegalOpc80FF (low : BitVec 15)
  deriving DecidableEq, Repr

end Sys2Proof
end

