-- ==== Sys2Proof/Machine/FunctionCode.lean ====
section
/-! DEFINITION. The function-code byte (30_encoding.md rule R65) and the remote data space each function reaches
(20_memory.md rule R41). -/

namespace Sys2Proof

/-- The function-code byte of 30_encoding.md rule R65. -/
def Fc.toByte : Fc → Byte
  | .rc => 0x01
  | .rdi => 0x02
  | .rhr => 0x03
  | .rir => 0x04
  | .wsc => 0x05
  | .wsr => 0x06
  | .res => 0x07
  | .diag => 0x08
  | .wmc => 0x0F
  | .wmr => 0x10

/-- The whole set, in the order of rule R65. -/
def Fc.all : List Fc := [.rc, .rdi, .rhr, .rir, .wsc, .wsr, .res, .diag, .wmc, .wmr]

/-- The function a byte stands for, none outside the closed set (rule R65, last sentence). -/
def Fc.ofByte? (b : Byte) : Option Fc := Fc.all.find? (fun f => f.toByte == b)

/-- The four remote Modbus data spaces (20_memory.md rule R41). -/
inductive RemoteSpace where
  | coils | discreteInputs | holdingRegisters | inputRegisters
  deriving DecidableEq, Repr

/-- Which remote space a function's request reaches; none for the two that address no data space. Descriptive: no
command reads it. PRESUMED for the write functions and 0x03, as rule R41 marks them (log entry 13); safe. -/
def Fc.reaches : Fc → Option RemoteSpace
  | .rc | .wsc | .wmc => some .coils
  | .rdi => some .discreteInputs
  | .rhr | .wsr | .wmr => some .holdingRegisters
  | .rir => some .inputRegisters
  | .res | .diag => none

end Sys2Proof
end

