-- ==== Sys2Proof/WellFormed.lean ====
section
/-! DEFINITION. Which commands a command word and its ports can stand for: the port types of 30_encoding.md rule R63, and
the rows that overlap (a function code outside the set for the invalid rows, an ABORT code outside 1 to 3). -/

namespace Sys2Proof

/-- The largest length the BITS and WORDS ports admit (30_encoding.md rule R63). -/
def portMax : Nat := 65535

/-- The ABORT codes of 30_encoding.md rule R62. -/
def abortCodes : List Byte := [1, 2, 3]

/-- Whether a command is one that the block's encoding can present. -/
def Instr.wf : Instr → Bool
  | .crcInit _ | .crcUpdate _ | .crcCompute _ _ | .crcVerify _ _ _ => true
  | .resolveRC _ | .resolveRDI _ | .resolveRHR | .resolveRIR _ | .resolveWSC | .resolveWSR | .resolveRES => true
  | .resolveDIAG _ => true
  | .resolveWMC bits => decide (bits.length ≤ portMax)
  | .resolveWMR words => decide (words.length ≤ portMax)
  | .resolveInvalid fc => (Fc.ofByte? fc).isNone
  | .encodeRC _ _ _ | .encodeRDI _ _ _ | .encodeRHR _ _ | .encodeRIR _ _ _ | .encodeWSC _ _ _ => true
  | .encodeWSR _ _ _ | .encodeRES _ | .encodeDIAG _ _ => true
  | .encodeWMC _ _ bits => decide (bits.length ≤ portMax)
  | .encodeWMR _ _ words => decide (words.length ≤ portMax)
  | .encodeInvalid fc => (Fc.ofByte? fc).isNone
  | .decodeRC _ | .decodeRDI _ | .decodeRHR _ | .decodeRIR _ | .decodeWSC _ | .decodeWSR _ | .decodeRES _ => true
  | .decodeDIAG _ | .decodeWMC _ | .decodeWMR _ => true
  | .decodeInvalid fc => (Fc.ofByte? fc).isNone
  | .abortTransportError | .abortTimeout | .abortInvalidResponseLength => true
  | .abortIllegal code => !abortCodes.contains code
  | .reset _ => true
  | .illegalOpc00 _ | .illegalOpc0A0B _ | .illegalOpc0C0F _ | .illegalOpc101F _ | .illegalOpc203F _ => true
  | .illegalOpc407F _ | .illegalOpc80FF _ => true

/-- Whether the ports' values lie in their types (30_encoding.md rule R63). -/
def Ports.wf (p : Ports) : Bool := decide (p.bits.length ≤ portMax) && decide (p.words.length ≤ portMax)

end Sys2Proof
end

