-- ==== Sys2Proof/Decode.lean ====
section
/-! DEFINITION. The decoder (30_encoding.md rules R60 to R65, R73, R74), total on every command word and every port value,
the encoder, and the opcode table with its most-specific-row selection. -/

namespace Sys2Proof

/-- OPC, bits 15:8 of the command word (rule R60). -/
def opcOf (cw : Word) : Byte := cw.extractLsb' 8 8

/-- ARG8, bits 7:0 of the command word (rule R60). -/
def arg8Of (cw : Word) : Byte := cw.extractLsb' 0 8

/-- The command word OPC*256 + ARG8 (rules R60, R77). -/
def commandWord (opc arg : Byte) : Word := opc ++ arg

/-- RESOLVE_LEN of a function, with the ports rule R63 names for it. -/
def resolveOf : Fc → Ports → Instr
  | .rc, p => .resolveRC p.count
  | .rdi, p => .resolveRDI p.count
  | .rhr, _ => .resolveRHR
  | .rir, p => .resolveRIR p.count
  | .wsc, _ => .resolveWSC
  | .wsr, _ => .resolveWSR
  | .res, _ => .resolveRES
  | .diag, p => .resolveDIAG p.bytes
  | .wmc, p => .resolveWMC p.bits
  | .wmr, p => .resolveWMR p.words

/-- ENCODE of a function, with the ports rule R63 names for it. -/
def encodeOf : Fc → Ports → Instr
  | .rc, p => .encodeRC p.unit p.addr p.count
  | .rdi, p => .encodeRDI p.unit p.addr p.count
  | .rhr, p => .encodeRHR p.unit p.addr
  | .rir, p => .encodeRIR p.unit p.addr p.count
  | .wsc, p => .encodeWSC p.unit p.addr p.state
  | .wsr, p => .encodeWSR p.unit p.addr p.value
  | .res, p => .encodeRES p.unit
  | .diag, p => .encodeDIAG p.unit p.bytes
  | .wmc, p => .encodeWMC p.unit p.addr p.bits
  | .wmr, p => .encodeWMR p.unit p.addr p.words

/-- DECODE of a function, with the RX port. -/
def decodeOf : Fc → List Byte → Instr
  | .rc, rx => .decodeRC rx
  | .rdi, rx => .decodeRDI rx
  | .rhr, rx => .decodeRHR rx
  | .rir, rx => .decodeRIR rx
  | .wsc, rx => .decodeWSC rx
  | .wsr, rx => .decodeWSR rx
  | .res, rx => .decodeRES rx
  | .diag, rx => .decodeDIAG rx
  | .wmc, rx => .decodeWMC rx
  | .wmr, rx => .decodeWMR rx

/-- RESOLVE_LEN by its ARG8 (rules R62, R74). -/
def readResolve (arg : Byte) (p : Ports) : Instr :=
  match Fc.ofByte? arg with
  | some fc => resolveOf fc p
  | none => .resolveInvalid arg

/-- ENCODE by its ARG8 (rules R62, R74). -/
def readEncode (arg : Byte) (p : Ports) : Instr :=
  match Fc.ofByte? arg with
  | some fc => encodeOf fc p
  | none => .encodeInvalid arg

/-- DECODE by its ARG8 (rules R62, R74). -/
def readDecode (arg : Byte) (p : Ports) : Instr :=
  match Fc.ofByte? arg with
  | some fc => decodeOf fc p.rx
  | none => .decodeInvalid arg

/-- ABORT by its ARG8 (rules R62, R73). -/
def readAbort (arg : Byte) : Instr :=
  if arg = 0x01 then .abortTransportError
  else if arg = 0x02 then .abortTimeout
  else if arg = 0x03 then .abortInvalidResponseLength
  else .abortIllegal arg

/-- The reserved OPC values 0x0A to 0xFF, row by row of the opcode table (rule R61). -/
def readReserved (cw : Word) : Instr :=
  if cw.toNat < 0x0C00 then .illegalOpc0A0B (cw.setWidth 9)
  else if cw.toNat < 0x1000 then .illegalOpc0C0F (cw.setWidth 10)
  else if cw.toNat < 0x2000 then .illegalOpc101F (cw.setWidth 12)
  else if cw.toNat < 0x4000 then .illegalOpc203F (cw.setWidth 13)
  else if cw.toNat < 0x8000 then .illegalOpc407F (cw.setWidth 14)
  else .illegalOpc80FF (cw.setWidth 15)

/-- The command a command word and its ports stand for (rules R61 to R63, R73, R74): every word has one. -/
def readCommand (c : Command) : Instr :=
  let opc := opcOf c.cw
  let arg := arg8Of c.cw
  if opc = 0x00 then .illegalOpc00 arg
  else if opc = 0x01 then .crcInit arg
  else if opc = 0x02 then .crcUpdate arg
  else if opc = 0x03 then .crcCompute arg c.ports.bytes
  else if opc = 0x04 then .crcVerify arg c.ports.bytes c.ports.rxcrc
  else if opc = 0x05 then readResolve arg c.ports
  else if opc = 0x06 then readEncode arg c.ports
  else if opc = 0x07 then readDecode arg c.ports
  else if opc = 0x08 then readAbort arg
  else if opc = 0x09 then .reset arg
  else readReserved c.cw

/-- The port that a command reads and that is longer than its type admits, if there is one (rule R63). -/
def portError : Instr → Option DecodeError
  | .resolveWMC bits => if bits.length ≤ portMax then none else some .bitsTooLong
  | .resolveWMR words => if words.length ≤ portMax then none else some .wordsTooLong
  | .encodeWMC _ _ bits => if bits.length ≤ portMax then none else some .bitsTooLong
  | .encodeWMR _ _ words => if words.length ≤ portMax then none else some .wordsTooLong
  | .crcInit _ | .crcUpdate _ | .crcCompute _ _ | .crcVerify _ _ _ => none
  | .resolveRC _ | .resolveRDI _ | .resolveRHR | .resolveRIR _ | .resolveWSC | .resolveWSR | .resolveRES => none
  | .resolveDIAG _ | .resolveInvalid _ => none
  | .encodeRC _ _ _ | .encodeRDI _ _ _ | .encodeRHR _ _ | .encodeRIR _ _ _ | .encodeWSC _ _ _ => none
  | .encodeWSR _ _ _ | .encodeRES _ | .encodeDIAG _ _ | .encodeInvalid _ => none
  | .decodeRC _ | .decodeRDI _ | .decodeRHR _ | .decodeRIR _ | .decodeWSC _ | .decodeWSR _ | .decodeRES _ => none
  | .decodeDIAG _ | .decodeWMC _ | .decodeWMR _ | .decodeInvalid _ => none
  | .abortTransportError | .abortTimeout | .abortInvalidResponseLength | .abortIllegal _ | .reset _ => none
  | .illegalOpc00 _ | .illegalOpc0A0B _ | .illegalOpc0C0F _ | .illegalOpc101F _ | .illegalOpc203F _ => none
  | .illegalOpc407F _ | .illegalOpc80FF _ => none

/-- The decoder: every command word has a meaning; only a port value outside its type is rejected, by name. -/
def decode (c : Command) : Except DecodeError Instr :=
  let i := readCommand c
  match portError i with
  | none => .ok i
  | some e => .error e

/-- The encoder, from the same tables (rules R60 to R63): the command word, and the operands on the ports the
command's rule names, the other ports idle. -/
def encode : Instr → Command
  | .crcInit arg => ⟨commandWord 0x01 arg, Ports.idle⟩
  | .crcUpdate data => ⟨commandWord 0x02 data, Ports.idle⟩
  | .crcCompute arg bytes => ⟨commandWord 0x03 arg, { Ports.idle with bytes := bytes }⟩
  | .crcVerify arg bytes rxcrc => ⟨commandWord 0x04 arg, { Ports.idle with bytes := bytes, rxcrc := rxcrc }⟩
  | .resolveRC count => ⟨commandWord 0x05 0x01, { Ports.idle with count := count }⟩
  | .resolveRDI count => ⟨commandWord 0x05 0x02, { Ports.idle with count := count }⟩
  | .resolveRHR => ⟨commandWord 0x05 0x03, Ports.idle⟩
  | .resolveRIR count => ⟨commandWord 0x05 0x04, { Ports.idle with count := count }⟩
  | .resolveWSC => ⟨commandWord 0x05 0x05, Ports.idle⟩
  | .resolveWSR => ⟨commandWord 0x05 0x06, Ports.idle⟩
  | .resolveRES => ⟨commandWord 0x05 0x07, Ports.idle⟩
  | .resolveDIAG bytes => ⟨commandWord 0x05 0x08, { Ports.idle with bytes := bytes }⟩
  | .resolveWMC bits => ⟨commandWord 0x05 0x0F, { Ports.idle with bits := bits }⟩
  | .resolveWMR words => ⟨commandWord 0x05 0x10, { Ports.idle with words := words }⟩
  | .resolveInvalid fc => ⟨commandWord 0x05 fc, Ports.idle⟩
  | .encodeRC unit addr count =>
      ⟨commandWord 0x06 0x01, { Ports.idle with unit := unit, addr := addr, count := count }⟩
  | .encodeRDI unit addr count =>
      ⟨commandWord 0x06 0x02, { Ports.idle with unit := unit, addr := addr, count := count }⟩
  | .encodeRHR unit addr => ⟨commandWord 0x06 0x03, { Ports.idle with unit := unit, addr := addr }⟩
  | .encodeRIR unit addr count =>
      ⟨commandWord 0x06 0x04, { Ports.idle with unit := unit, addr := addr, count := count }⟩
  | .encodeWSC unit addr state =>
      ⟨commandWord 0x06 0x05, { Ports.idle with unit := unit, addr := addr, state := state }⟩
  | .encodeWSR unit addr value =>
      ⟨commandWord 0x06 0x06, { Ports.idle with unit := unit, addr := addr, value := value }⟩
  | .encodeRES unit => ⟨commandWord 0x06 0x07, { Ports.idle with unit := unit }⟩
  | .encodeDIAG unit bytes => ⟨commandWord 0x06 0x08, { Ports.idle with unit := unit, bytes := bytes }⟩
  | .encodeWMC unit addr bits =>
      ⟨commandWord 0x06 0x0F, { Ports.idle with unit := unit, addr := addr, bits := bits }⟩
  | .encodeWMR unit addr words =>
      ⟨commandWord 0x06 0x10, { Ports.idle with unit := unit, addr := addr, words := words }⟩
  | .encodeInvalid fc => ⟨commandWord 0x06 fc, Ports.idle⟩
  | .decodeRC rx => ⟨commandWord 0x07 0x01, { Ports.idle with rx := rx }⟩
  | .decodeRDI rx => ⟨commandWord 0x07 0x02, { Ports.idle with rx := rx }⟩
  | .decodeRHR rx => ⟨commandWord 0x07 0x03, { Ports.idle with rx := rx }⟩
  | .decodeRIR rx => ⟨commandWord 0x07 0x04, { Ports.idle with rx := rx }⟩
  | .decodeWSC rx => ⟨commandWord 0x07 0x05, { Ports.idle with rx := rx }⟩
  | .decodeWSR rx => ⟨commandWord 0x07 0x06, { Ports.idle with rx := rx }⟩
  | .decodeRES rx => ⟨commandWord 0x07 0x07, { Ports.idle with rx := rx }⟩
  | .decodeDIAG rx => ⟨commandWord 0x07 0x08, { Ports.idle with rx := rx }⟩
  | .decodeWMC rx => ⟨commandWord 0x07 0x0F, { Ports.idle with rx := rx }⟩
  | .decodeWMR rx => ⟨commandWord 0x07 0x10, { Ports.idle with rx := rx }⟩
  | .decodeInvalid fc => ⟨commandWord 0x07 fc, Ports.idle⟩
  | .abortTransportError => ⟨commandWord 0x08 0x01, Ports.idle⟩
  | .abortTimeout => ⟨commandWord 0x08 0x02, Ports.idle⟩
  | .abortInvalidResponseLength => ⟨commandWord 0x08 0x03, Ports.idle⟩
  | .abortIllegal code => ⟨commandWord 0x08 code, Ports.idle⟩
  | .reset arg => ⟨commandWord 0x09 arg, Ports.idle⟩
  | .illegalOpc00 arg => ⟨commandWord 0x00 arg, Ports.idle⟩
  | .illegalOpc0A0B low => ⟨0b0000101#7 ++ low, Ports.idle⟩
  | .illegalOpc0C0F low => ⟨0b000011#6 ++ low, Ports.idle⟩
  | .illegalOpc101F low => ⟨0b0001#4 ++ low, Ports.idle⟩
  | .illegalOpc203F low => ⟨0b001#3 ++ low, Ports.idle⟩
  | .illegalOpc407F low => ⟨0b01#2 ++ low, Ports.idle⟩
  | .illegalOpc80FF low => ⟨0b1#1 ++ low, Ports.idle⟩

/-- The command whose opcode-table bits are `w`, with every operand port idle: the table gives operand ports no bits
(log entry 10). -/
def commandOfTableWord (nbits w : Nat) : Command := ⟨BitVec.ofNat 16 (w % 2 ^ nbits), Ports.idle⟩

/-- What the decoder reads from a table word; the one command length is 16 bits (rule R60). -/
def decodeTableWord (nbits w : Nat) : Option Instr :=
  if nbits ≤ 16 then (decode (commandOfTableWord nbits w)).toOption else none

/-- One row of spec/opcode_table.json: its mnemonic, its mask and the value the masked word must have. -/
structure OpcodeRow where
  mnemonic : String
  mask     : Word
  value    : Word
  deriving DecidableEq, Repr

/-- A command word lies in a row. -/
def rowMatches (r : OpcodeRow) (cw : Word) : Bool := (cw &&& r.mask) == r.value

/-- How many bits a row's mask fixes. -/
def maskBits (r : OpcodeRow) : Nat := ((List.range 16).filter (fun k => r.mask.getLsbD k)).length

/-- The rows of the CRC family. -/
def crcRows : List OpcodeRow :=
  [⟨"CRC_INIT", 0xFF00, 0x0100⟩, ⟨"CRC_UPDATE", 0xFF00, 0x0200⟩, ⟨"CRC_COMPUTE", 0xFF00, 0x0300⟩,
   ⟨"CRC_VERIFY", 0xFF00, 0x0400⟩]

/-- The rows of RESOLVE_LEN. -/
def resolveRows : List OpcodeRow :=
  [⟨"RESOLVE_LEN.RC", 0xFFFF, 0x0501⟩, ⟨"RESOLVE_LEN.RDI", 0xFFFF, 0x0502⟩, ⟨"RESOLVE_LEN.RHR", 0xFFFF, 0x0503⟩,
   ⟨"RESOLVE_LEN.RIR", 0xFFFF, 0x0504⟩, ⟨"RESOLVE_LEN.WSC", 0xFFFF, 0x0505⟩, ⟨"RESOLVE_LEN.WSR", 0xFFFF, 0x0506⟩,
   ⟨"RESOLVE_LEN.RES", 0xFFFF, 0x0507⟩, ⟨"RESOLVE_LEN.DIAG", 0xFFFF, 0x0508⟩, ⟨"RESOLVE_LEN.WMC", 0xFFFF, 0x050F⟩,
   ⟨"RESOLVE_LEN.WMR", 0xFFFF, 0x0510⟩, ⟨"RESOLVE_LEN__invalid_function_code", 0xFF00, 0x0500⟩]

/-- The rows of ENCODE. -/
def encodeRows : List OpcodeRow :=
  [⟨"ENCODE.RC", 0xFFFF, 0x0601⟩, ⟨"ENCODE.RDI", 0xFFFF, 0x0602⟩, ⟨"ENCODE.RHR", 0xFFFF, 0x0603⟩,
   ⟨"ENCODE.RIR", 0xFFFF, 0x0604⟩, ⟨"ENCODE.WSC", 0xFFFF, 0x0605⟩, ⟨"ENCODE.WSR", 0xFFFF, 0x0606⟩,
   ⟨"ENCODE.RES", 0xFFFF, 0x0607⟩, ⟨"ENCODE.DIAG", 0xFFFF, 0x0608⟩, ⟨"ENCODE.WMC", 0xFFFF, 0x060F⟩,
   ⟨"ENCODE.WMR", 0xFFFF, 0x0610⟩, ⟨"ENCODE__invalid_function_code", 0xFF00, 0x0600⟩]

/-- The rows of DECODE. -/
def decodeRows : List OpcodeRow :=
  [⟨"DECODE.RC", 0xFFFF, 0x0701⟩, ⟨"DECODE.RDI", 0xFFFF, 0x0702⟩, ⟨"DECODE.RHR", 0xFFFF, 0x0703⟩,
   ⟨"DECODE.RIR", 0xFFFF, 0x0704⟩, ⟨"DECODE.WSC", 0xFFFF, 0x0705⟩, ⟨"DECODE.WSR", 0xFFFF, 0x0706⟩,
   ⟨"DECODE.RES", 0xFFFF, 0x0707⟩, ⟨"DECODE.DIAG", 0xFFFF, 0x0708⟩, ⟨"DECODE.WMC", 0xFFFF, 0x070F⟩,
   ⟨"DECODE.WMR", 0xFFFF, 0x0710⟩, ⟨"DECODE__invalid_function_code", 0xFF00, 0x0700⟩]

/-- The rows of ABORT, RESET and the reserved OPC values. -/
def controlRows : List OpcodeRow :=
  [⟨"ABORT_TRANSPORT_ERROR", 0xFFFF, 0x0801⟩, ⟨"ABORT_TIMEOUT", 0xFFFF, 0x0802⟩,
   ⟨"ABORT_INVALID_RESPONSE_LENGTH", 0xFFFF, 0x0803⟩, ⟨"ABORT__illegal_code", 0xFF00, 0x0800⟩,
   ⟨"RESET", 0xFF00, 0x0900⟩, ⟨"ILLEGAL__OPC_0x00", 0xFF00, 0x0000⟩, ⟨"ILLEGAL__OPC_0x0A_to_0x0B", 0xFE00, 0x0A00⟩,
   ⟨"ILLEGAL__OPC_0x0C_to_0x0F", 0xFC00, 0x0C00⟩, ⟨"ILLEGAL__OPC_0x10_to_0x1F", 0xF000, 0x1000⟩,
   ⟨"ILLEGAL__OPC_0x20_to_0x3F", 0xE000, 0x2000⟩, ⟨"ILLEGAL__OPC_0x40_to_0x7F", 0xC000, 0x4000⟩,
   ⟨"ILLEGAL__OPC_0x80_to_0xFF", 0x8000, 0x8000⟩]

/-- The 49 rows of spec/opcode_table.json, in its order. -/
def opcodeTable : List OpcodeRow := crcRows ++ resolveRows ++ encodeRows ++ decodeRows ++ controlRows

/-- The row of a command, by its place in the table. -/
def rowOf : Instr → Nat
  | .crcInit _ => 0
  | .crcUpdate _ => 1
  | .crcCompute _ _ => 2
  | .crcVerify _ _ _ => 3
  | .resolveRC _ => 4
  | .resolveRDI _ => 5
  | .resolveRHR => 6
  | .resolveRIR _ => 7
  | .resolveWSC => 8
  | .resolveWSR => 9
  | .resolveRES => 10
  | .resolveDIAG _ => 11
  | .resolveWMC _ => 12
  | .resolveWMR _ => 13
  | .resolveInvalid _ => 14
  | .encodeRC _ _ _ => 15
  | .encodeRDI _ _ _ => 16
  | .encodeRHR _ _ => 17
  | .encodeRIR _ _ _ => 18
  | .encodeWSC _ _ _ => 19
  | .encodeWSR _ _ _ => 20
  | .encodeRES _ => 21
  | .encodeDIAG _ _ => 22
  | .encodeWMC _ _ _ => 23
  | .encodeWMR _ _ _ => 24
  | .encodeInvalid _ => 25
  | .decodeRC _ => 26
  | .decodeRDI _ => 27
  | .decodeRHR _ => 28
  | .decodeRIR _ => 29
  | .decodeWSC _ => 30
  | .decodeWSR _ => 31
  | .decodeRES _ => 32
  | .decodeDIAG _ => 33
  | .decodeWMC _ => 34
  | .decodeWMR _ => 35
  | .decodeInvalid _ => 36
  | .abortTransportError => 37
  | .abortTimeout => 38
  | .abortInvalidResponseLength => 39
  | .abortIllegal _ => 40
  | .reset _ => 41
  | .illegalOpc00 _ => 42
  | .illegalOpc0A0B _ => 43
  | .illegalOpc0C0F _ => 44
  | .illegalOpc101F _ => 45
  | .illegalOpc203F _ => 46
  | .illegalOpc407F _ => 47
  | .illegalOpc80FF _ => 48

/-- The places of the rows that win for a command word: of the rows it lies in, the ones with the most mask bits set
(30_encoding.md, opening paragraph). -/
def winningRows (cw : Word) : List Nat :=
  let hits := opcodeTable.zipIdx.filter (fun rk => rowMatches rk.1 cw)
  let most := (hits.map (fun rk => maskBits rk.1)).foldl max 0
  (hits.filter (fun rk => maskBits rk.1 == most)).map (fun rk => rk.2)

end Sys2Proof
end

