-- ==== Sys2Proof/Config.lean ====
section
/-! DEFINITION. What an implementation fixes (00_scope.md rules R5, R7) and the free values of
93_implementation_defined.md entry A1. The opaque constants have no body: no proof can see their values. -/

namespace Sys2Proof

/-- The one implementation parameter, MAX_ADU, restricted to its legal range 10 to 256
(00_scope.md rule R5). A model takes it as an argument: `State.config` carries it (log entry 2). -/
structure Config where
  maxAdu : Nat
  legal : 10 ≤ maxAdu ∧ maxAdu ≤ 256
  deriving DecidableEq, Repr

/-- The value the spec takes: MAX_ADU = 256 (00_scope.md rule R5). -/
def Config.standard : Config := { maxAdu := 256, legal := by decide }

/-- SETTLE_DELAY, an OPEN parameter of the host (00_scope.md rule R7); no rule of the block reads it. -/
opaque Config.settleDelay : Nat

/-- READ_TIMEOUT, an OPEN parameter of the host (00_scope.md rule R7); no rule of the block reads it. -/
opaque Config.readTimeout : Nat

/-- CTX.fc after the n-th failed ENCODE: unspecified (10_state.md rule R30, A1), a free value (log entry 3). -/
opaque Config.freeCtxFc : Nat → Byte

/-- CTX.unit after the n-th failed ENCODE: a free value, as `freeCtxFc`. -/
opaque Config.freeCtxUnit : Nat → Byte

/-- CTX.count after the n-th failed ENCODE: a free value, as `freeCtxFc`. -/
opaque Config.freeCtxCount : Nat → Word

/-- CTX.explen after the n-th failed ENCODE: a free value, as `freeCtxFc`. -/
opaque Config.freeCtxExplen : Nat → Word

end Sys2Proof
end

