-- ==== Sys2Proof/Machine/State.lean ====
section
/-! DEFINITION. The block's state (10_state.md rules R20 to R36), the state after reset, and the reasons a step can stop. -/

namespace Sys2Proof.Machine

/-- STATUS.PHASE (10_state.md rules R24, R25). -/
inductive Phase where
  | idle | built | decoded | failed
  deriving DecidableEq, Repr

/-- The error codes 0 to 8 of 60_exceptions.md rule R221; 9 to 15 are never produced (93 entry A2). -/
inductive ErrCode where
  | ok
  | transportError
  | timeout
  | invalidResponseLength
  | checksumMismatch
  | echoMismatch
  | invalidRequest
  | sequenceError
  | illegalCommand
  deriving DecidableEq, Repr

/-- STATUS by its fields (10_state.md rule R24); its 16-bit word is `Status.toWord` (log entry 8). -/
structure Status where
  phase : Phase
  vfy   : Bool
  err   : ErrCode
  cst   : ErrCode
  deriving DecidableEq, Repr

/-- CTX, the transaction context (10_state.md rule R30). -/
structure Ctx where
  valid  : Bool
  fc     : Byte
  unit   : Byte
  count  : Word
  explen : Word
  deriving DecidableEq, Repr

/-- RESULT, the typed decode result (10_state.md rule R32). -/
inductive DecodeResult where
  | none
  | bits (b : List Bool)
  | regs (r : List Word)
  | reg (v : Word)
  | excStatus (e : Byte)
  | echo (d : List Byte)
  | writeOk
  deriving DecidableEq, Repr

/-- The block's state: the named registers of 10_state.md rules R23 to R33, then what the model itself keeps. -/
structure State where
  /-- ACC, the CRC accumulator (rule R23). -/
  acc : Word
  /-- STATUS (rule R24). -/
  status : Status
  /-- LENOUT (rule R29). -/
  lenout : Word
  /-- CTX (rule R30). -/
  ctx : Ctx
  /-- TXBUF, the request buffer (rule R31), first byte on the wire first. -/
  txbuf : List Byte
  /-- RESULT (rule R32). -/
  result : DecodeResult
  /-- The private CRC accumulator (rule R33), which no outcome depends on (log entry 4). -/
  privAcc : Word
  /-- MAX_ADU, the configuration argument (00_scope.md rule R5); no command writes it (log entry 2). -/
  config : Config
  /-- What the host presents on the command port, first one first (rules R20, R22; log entry 1). -/
  commands : List Command
  /-- The model's own counter of free values drawn (log entry 3). -/
  draws : Nat
  deriving DecidableEq, Repr

/-- Why the machine would stop. The block itself has no fault: no error stops it (60_exceptions.md rule R220). -/
inductive Fault where
  /-- Raised by a DECODE whose MemRead lies outside its buffer, where 00_scope.md rule R11 leaves MemRead undefined: only
  in a state whose CTX and TXBUF no ENCODE leaves, so no run reaches it (log entry 5). Safe. -/
  | readOutsideBuffer
  deriving DecidableEq, Repr

/-- Why a step has no meaning. -/
inductive Refusal where
  /-- Raised by `exec` for a command with no meaning in the model; no arm raises it. Safe. -/
  | notModelled (mnemonic : String)
  /-- Raised by `step` for a presented command with a port value outside its type (30_encoding.md rule R63), which no
  host can present (log entry 6). Safe. -/
  | malformedCommand (why : DecodeError)
  deriving DecidableEq, Repr

/-- STATUS = 0x0000 (10_state.md rule R36). -/
def Status.reset : Status := { phase := .idle, vfy := false, err := .ok, cst := .ok }

/-- CTX after reset (10_state.md rule R36). -/
def Ctx.reset : Ctx := { valid := false, fc := 0x00, unit := 0x00, count := 0x0000, explen := 0x0000 }

/-- The state after power-on (10_state.md rule R36, 70_reset_and_hazards.md rule R260), with MAX_ADU at the value the
spec takes and nothing presented. The private accumulator's value is a DESIGN CHOICE (log entry 4), the counter's too
(log entry 3). -/
def State.reset : State :=
  { acc := 0xFFFF
    status := Status.reset
    lenout := 0x0000
    ctx := Ctx.reset
    txbuf := []
    result := .none
    privAcc := 0xFFFF
    config := Config.standard
    commands := []
    draws := 0 }

end Sys2Proof.Machine
end

