-- ==== Sys2Proof/Machine/Flags.lean ====
section
/-! DEFINITION. STATUS: the codes of its fields, its 16-bit word and every way a command writes it (10_state.md rules R24 to
R28, 60_exceptions.md rules R221, R224, R226). -/

namespace Sys2Proof.Machine

/-- PHASE as two bits (10_state.md rule R24). -/
def Phase.bits : Phase → BitVec 2
  | .idle => 0
  | .built => 1
  | .decoded => 2
  | .failed => 3

/-- An error code as four bits (60_exceptions.md rule R221). -/
def ErrCode.bits : ErrCode → BitVec 4
  | .ok => 0
  | .transportError => 1
  | .timeout => 2
  | .invalidResponseLength => 3
  | .checksumMismatch => 4
  | .echoMismatch => 5
  | .invalidRequest => 6
  | .sequenceError => 7
  | .illegalCommand => 8

/-- The STATUS word the host reads: bits 15:12 zero, CST, ERR, bit 3 zero, VFY, PHASE (10_state.md rule R24). -/
def Status.toWord (t : Status) : Word :=
  0#4 ++ t.cst.bits ++ t.err.bits ++ 0#1 ++ BitVec.ofBool t.vfy ++ t.phase.bits

/-- CST alone (10_state.md rule R28): how a command without transaction effect, or a command-level error, is recorded
(60_exceptions.md rule R226). -/
def Status.withCst (t : Status) (e : ErrCode) : Status := { t with cst := e }

/-- CRC_VERIFY's Boolean, with CST 0 (10_state.md rule R26, 40_crc.md rule R106). -/
def Status.verified (t : Status) (matched : Bool) : Status := { t with vfy := matched, cst := .ok }

/-- PHASE BUILT, ERR 0, CST 0 (41_frame_encoder.md rule R122). -/
def Status.built (t : Status) : Status := { t with phase := .built, err := .ok, cst := .ok }

/-- PHASE DECODED, ERR 0, CST 0 (43_response_decoder.md rule R171). -/
def Status.decoded (t : Status) : Status := { t with phase := .decoded, err := .ok, cst := .ok }

/-- PHASE FAILED with its error code and the command's own completion (60_exceptions.md rule R224). -/
def Status.failed (t : Status) (e cst : ErrCode) : Status := { t with phase := .failed, err := e, cst := cst }

end Sys2Proof.Machine
end

