-- ==== Sys2Proof/Machine/Ops.lean ====
section
/-! DEFINITION. The shared operations: byte-order helpers (00_scope.md rule R9), buffer reads and writes (rule R11), the CRC
function (40_crc.md rules R100 to R102), and the recording of errors, which stands where other machines take an exception
(60_exceptions.md rules R220 to R226). -/

namespace Sys2Proof.Machine

/-- `hi8(v) = v[15:8]` (00_scope.md rule R9). -/
def hi8 (v : Word) : Byte := v.extractLsb' 8 8

/-- `lo8(v) = v[7:0]` (00_scope.md rule R9). -/
def lo8 (v : Word) : Byte := v.extractLsb' 0 8

/-- `be16(v)`: high byte first (00_scope.md rule R9, 20_memory.md rule R43). -/
def be16 (v : Word) : List Byte := [hi8 v, lo8 v]

/-- The 16-bit value of a high and a low byte: `high*256 + low` (00_scope.md rule R9). -/
def joinBytes (high low : Byte) : Word := high ++ low

/-- `ceil8(n) = (n + 7) div 8` (00_scope.md rule R9). -/
def ceil8 (n : Nat) : Nat := (n + 7) / 8

/-- `MemRead(B, i, n)`, defined only for `i + n <= len(B)` (00_scope.md rule R11). -/
def memRead (buf : List Byte) (i n : Nat) : Option (List Byte) :=
  if i + n ≤ buf.length then some ((buf.drop i).take n) else none

/-- `MemWrite(TXBUF, 0, n, s)`: the whole content is replaced (00_scope.md rule R11). -/
def writeTxbuf (s : State) (bytes : List Byte) : State := { s with txbuf := bytes }

/-- `repeat k: body` (00_scope.md rule R9). -/
def repeatTimes (k : Nat) (body : Word → Word) (a : Word) : Word :=
  match k with
  | 0 => a
  | k + 1 => repeatTimes k body (body a)

/-- One shift of the CRC step: the bit tested is the bit before the shift (40_crc.md rule R100). -/
def crcShift (a : Word) : Word := if a.getLsbD 0 then (a >>> 1) ^^^ 0xA001#16 else a >>> 1

/-- `crcStep(a, b)` (40_crc.md rule R100). -/
def crcStep (a : Word) (b : Byte) : Word := repeatTimes 8 crcShift (a ^^^ b.setWidth 16)

/-- The accumulator's initial value (40_crc.md rule R101). -/
def crcInitial : Word := 0xFFFF

/-- `crc(s)`: one step per byte in order, no final XOR (40_crc.md rule R101). -/
def crc (bytes : List Byte) : Word := bytes.foldl crcStep crcInitial

/-- `withCrc(s)`: the low byte of the CRC first (40_crc.md rule R102, 20_memory.md rule R44). -/
def withCrc (bytes : List Byte) : List Byte := bytes ++ [lo8 (crc bytes), hi8 (crc bytes)]

/-- `rxCrc(t) = t[L-2] + 256*t[L-1]`, for L >= 2 (40_crc.md rule R102). -/
def receivedCrc (t : List Byte) : Option Word :=
  match t.drop (t.length - 2) with
  | [low, high] => some (joinBytes high low)
  | _ => none

/-- The bytes a frame's CRC covers, `t[0..L-2)` (40_crc.md rule R102). -/
def coveredBytes (t : List Byte) : List Byte := t.take (t.length - 2)

/-- `t is CRC-valid` (40_crc.md rule R102). -/
def crcValid (t : List Byte) : Bool := receivedCrc t == some (crc (coveredBytes t))

/-- The private accumulator after a command that used it (10_state.md rule R33). -/
def setPrivAcc (s : State) (v : Word) : State := { s with privAcc := v }

/-- A command that ends without error and writes no other part of STATUS (10_state.md rule R28). -/
def complete (s : State) : State := { s with status := s.status.withCst .ok }

/-- `fail_cmd E`: a command-level error writes CST only (00_scope.md rule R12, 60_exceptions.md rule R226). -/
def failCommand (e : ErrCode) (s : State) : State := { s with status := s.status.withCst e }

/-- `raise E` in a transaction: RESULT NONE, PHASE FAILED, ERR the code, and the command's own completion in CST
(00_scope.md rule R12, 60_exceptions.md rule R224). There is no return from it (rule R225). -/
def recordFailure (e cst : ErrCode) (s : State) : State :=
  { s with result := .none, status := s.status.failed e cst }

/-- `raise E` in ENCODE or DECODE: CST is the error's code too (60_exceptions.md rule R224). -/
def raiseError (e : ErrCode) (s : State) : State := recordFailure e e s

/-- Success of a DECODE (43_response_decoder.md rule R171). -/
def commitResult (v : DecodeResult) (s : State) : State :=
  { s with result := v, status := s.status.decoded }

/-- The unspecified CTX that a failed ENCODE leaves: not valid, the other fields free values (10_state.md rule R30,
93 entry A1; log entry 3). -/
def freeCtx (n : Nat) : Ctx :=
  { valid := false
    fc := Config.freeCtxFc n
    unit := Config.freeCtxUnit n
    count := Config.freeCtxCount n
    explen := Config.freeCtxExplen n }

/-- What the host reads (30_encoding.md rule R64). -/
structure Outputs where
  acc    : Word
  status : Word
  lenout : Word
  txbuf  : List Byte
  txlen  : Nat
  result : DecodeResult
  deriving DecidableEq, Repr

/-- The outputs of a state: reading them changes nothing (10_state.md rule R34). -/
def outputs (s : State) : Outputs :=
  { acc := s.acc
    status := s.status.toWord
    lenout := s.lenout
    txbuf := s.txbuf
    txlen := s.txbuf.length
    result := s.result }

end Sys2Proof.Machine
end

