-- ==== Sys2Proof/Machine/Control.lean ====
section
/-! DEFINITION. ABORT, RESET and the illegal commands (44_control.md rules R200 to R203). -/

namespace Sys2Proof.Machine

/-- ABORT with a code of the set: a host-reported failure, or a sequence error without a built request (rule R200). -/
def abortWith (e : ErrCode) (s : State) : Host.Outcome State Fault Refusal :=
  if s.ctx.valid = false then .next (failCommand .sequenceError s) else .next (recordFailure e .ok s)

/-- An illegal command: CST only (rule R202). -/
def illegalCommand (s : State) : Host.Outcome State Fault Refusal := .next (failCommand .illegalCommand s)

/-- ABORT TRANSPORT_ERROR (rule R200). -/
def execAbortTransportError (s : State) : Host.Outcome State Fault Refusal := abortWith .transportError s

/-- ABORT TIMEOUT (rule R200). -/
def execAbortTimeout (s : State) : Host.Outcome State Fault Refusal := abortWith .timeout s

/-- ABORT INVALID_RESPONSE_LENGTH (rule R200). -/
def execAbortInvalidResponseLength (s : State) : Host.Outcome State Fault Refusal := abortWith .invalidResponseLength s

/-- ABORT with another code: illegal, before any sequence check (rules R200, R202, 60_exceptions.md rule R223). -/
def execAbortIllegal (_code : Byte) (s : State) : Host.Outcome State Fault Refusal := illegalCommand s

/-- RESET (rule R201): the reset state of 10_state.md rule R36; ARG8 is ignored. MAX_ADU stays (70_reset_and_hazards.md
rule R260), and so do what the host has yet to present, the private accumulator, which rule R201 does not name, and the
model's counter (log entry 12). -/
def execReset (_arg : Byte) (s : State) : Host.Outcome State Fault Refusal :=
  .next { s with
    acc := 0xFFFF
    status := Status.reset
    lenout := 0x0000
    ctx := Ctx.reset
    txbuf := []
    result := .none }

/-- Reserved OPC 0x00 (rule R202). -/
def execIllegalOpc00 (_arg : Byte) (s : State) : Host.Outcome State Fault Refusal := illegalCommand s

/-- Reserved OPC 0x0A and 0x0B (rule R202). -/
def execIllegalOpc0A0B (_low : BitVec 9) (s : State) : Host.Outcome State Fault Refusal := illegalCommand s

/-- Reserved OPC 0x0C to 0x0F (rule R202). -/
def execIllegalOpc0C0F (_low : BitVec 10) (s : State) : Host.Outcome State Fault Refusal := illegalCommand s

/-- Reserved OPC 0x10 to 0x1F (rule R202). -/
def execIllegalOpc101F (_low : BitVec 12) (s : State) : Host.Outcome State Fault Refusal := illegalCommand s

/-- Reserved OPC 0x20 to 0x3F (rule R202). -/
def execIllegalOpc203F (_low : BitVec 13) (s : State) : Host.Outcome State Fault Refusal := illegalCommand s

/-- Reserved OPC 0x40 to 0x7F (rule R202). -/
def execIllegalOpc407F (_low : BitVec 14) (s : State) : Host.Outcome State Fault Refusal := illegalCommand s

/-- Reserved OPC 0x80 to 0xFF (rule R202). -/
def execIllegalOpc80FF (_low : BitVec 15) (s : State) : Host.Outcome State Fault Refusal := illegalCommand s

end Sys2Proof.Machine
end

