-- ==== Sys2Proof/Machine/Crc.lean ====
section
/-! DEFINITION. The CRC commands (40_crc.md rules R103 to R106). -/

namespace Sys2Proof.Machine

/-- CRC_INIT (rule R103): ARG8 is ignored. -/
def execCrcInit (_arg : Byte) (s : State) : Host.Outcome State Fault Refusal :=
  .next (complete { s with acc := crcInitial })

/-- CRC_UPDATE (rule R104). -/
def execCrcUpdate (data : Byte) (s : State) : Host.Outcome State Fault Refusal :=
  .next (complete { s with acc := crcStep s.acc data })

/-- CRC_COMPUTE (rule R105): ARG8 is ignored, the previous ACC does not matter. -/
def execCrcCompute (_arg : Byte) (bytes : List Byte) (s : State) : Host.Outcome State Fault Refusal :=
  .next (complete { s with acc := crc bytes })

/-- CRC_VERIFY (rule R106): the CRC is computed in the private accumulator, a mismatch is a result and no error. -/
def execCrcVerify (_arg : Byte) (bytes : List Byte) (rxcrc : Word) (s : State) : Host.Outcome State Fault Refusal :=
  .next (setPrivAcc { s with status := s.status.verified (crc bytes == rxcrc) } (crc bytes))

end Sys2Proof.Machine
end

