-- ==== Sys2Proof/Machine/Operands.lean ====
section
/-! DEFINITION. Operand and field assembly: lengths and validity of a request (41_frame_encoder.md rules R120, R121,
42_length_resolver.md rule R150), coil and register packing (30_encoding.md rules R69 to R72), the request bodies
(41_frame_encoder.md rules R123 to R132) and the extraction of a response's value (43_response_decoder.md rules R172 to
R181). -/

namespace Sys2Proof.Machine

/-- `reqLen(fc, OPS)` (41_frame_encoder.md rule R121), on unbounded integers. -/
def reqLen : Fc → Ports → Nat
  | .rc, _ => 8
  | .rdi, _ => 8
  | .rhr, _ => 8
  | .rir, _ => 8
  | .wsc, _ => 8
  | .wsr, _ => 8
  | .res, _ => 4
  | .diag, ops => 6 + ops.bytes.length
  | .wmc, ops => 9 + ceil8 ops.bits.length
  | .wmr, ops => 9 + 2 * ops.words.length

/-- `expLen(fc, OPS)` (42_length_resolver.md rule R150; 0x03 and 0x08 as 90_conflicts.md C1 and C2 correct them), on
unbounded integers. -/
def expLen : Fc → Ports → Nat
  | .rc, ops => 5 + ceil8 ops.count.toNat
  | .rdi, ops => 5 + ceil8 ops.count.toNat
  | .rhr, _ => 7
  | .rir, ops => 5 + 2 * ops.count.toNat
  | .wsc, _ => 8
  | .wsr, _ => 8
  | .res, _ => 5
  | .diag, ops => 6 + ops.bytes.length
  | .wmc, _ => 8
  | .wmr, _ => 8

/-- The count limits of `valid` (41_frame_encoder.md rule R120): no zero count, and a byte count that fits one byte. -/
def countAllowed : Fc → Ports → Bool
  | .rc, ops => decide (1 ≤ ops.count.toNat)
  | .rdi, ops => decide (1 ≤ ops.count.toNat)
  | .rhr, _ => true
  | .rir, ops => decide (1 ≤ ops.count.toNat)
  | .wsc, _ => true
  | .wsr, _ => true
  | .res, _ => true
  | .diag, _ => true
  | .wmc, ops => decide (1 ≤ ops.bits.length ∧ ceil8 ops.bits.length ≤ 255)
  | .wmr, ops => decide (1 ≤ ops.words.length ∧ 2 * ops.words.length ≤ 255)

/-- `valid(fc, OPS)` for a function code of the set (41_frame_encoder.md rule R120). -/
def requestValid (cfg : Config) (fc : Fc) (ops : Ports) : Bool :=
  countAllowed fc ops && decide (reqLen fc ops ≤ cfg.maxAdu) && decide (expLen fc ops ≤ cfg.maxAdu)

/-- Byte k of packed coils: bit j is element 8k+j, zero past the end (30_encoding.md rule R70). -/
def packByte (bits : List Bool) (k : Nat) : Byte :=
  BitVec.ofNat 8 ((List.range 8).map (fun j => if bits.getD (8 * k + j) false then 2 ^ j else 0)).sum

/-- Packed coils, LSB-first, padding zero (30_encoding.md rule R70, 20_memory.md rule R45). -/
def packBits (bits : List Bool) : List Byte := (List.range (ceil8 bits.length)).map (packByte bits)

/-- Element i of a bit list is bit `i mod 8` of byte `i div 8` (30_encoding.md rule R71, 20_memory.md rule R45). -/
def unpackBits (data : List Byte) (c : Nat) : List Bool :=
  (List.range c).map (fun i => (data.getD (i / 8) 0).getLsbD (i % 8))

/-- Register values on the wire, high byte first (30_encoding.md rule R72). -/
def packWords (words : List Word) : List Byte := words.flatMap be16

/-- Registers from the wire, two bytes each, high byte first (30_encoding.md rule R72). -/
def unpackWords : List Byte → List Word
  | high :: low :: rest => joinBytes high low :: unpackWords rest
  | _ => []

/-- The coil-state field: 0xFF00 for ON, 0x0000 for OFF (30_encoding.md rule R69). -/
def coilState (state : Bool) : List Byte := if state then [0xFF, 0x00] else [0x00, 0x00]

/-- 41_frame_encoder.md rule R123. -/
def bodyRC (unit : Byte) (addr count : Word) : List Byte := [unit, 0x01] ++ be16 addr ++ be16 count

/-- 41_frame_encoder.md rule R124. -/
def bodyRDI (unit : Byte) (addr count : Word) : List Byte := [unit, 0x02] ++ be16 addr ++ be16 count

/-- 41_frame_encoder.md rule R125. -/
def bodyRIR (unit : Byte) (addr count : Word) : List Byte := [unit, 0x04] ++ be16 addr ++ be16 count

/-- 41_frame_encoder.md rule R126: the count field is always one. -/
def bodyRHR (unit : Byte) (addr : Word) : List Byte := [unit, 0x03] ++ be16 addr ++ [0x00, 0x01]

/-- 41_frame_encoder.md rule R127. -/
def bodyWSC (unit : Byte) (addr : Word) (state : Bool) : List Byte := [unit, 0x05] ++ be16 addr ++ coilState state

/-- 41_frame_encoder.md rule R128. -/
def bodyWSR (unit : Byte) (addr value : Word) : List Byte := [unit, 0x06] ++ be16 addr ++ be16 value

/-- 41_frame_encoder.md rule R129. -/
def bodyWMC (unit : Byte) (addr : Word) (bits : List Bool) : List Byte :=
  [unit, 0x0F] ++ be16 addr ++ be16 (BitVec.ofNat 16 bits.length) ++ [BitVec.ofNat 8 (ceil8 bits.length)] ++
    packBits bits

/-- 41_frame_encoder.md rule R130. -/
def bodyWMR (unit : Byte) (addr : Word) (words : List Word) : List Byte :=
  [unit, 0x10] ++ be16 addr ++ be16 (BitVec.ofNat 16 words.length) ++ [BitVec.ofNat 8 (2 * words.length)] ++
    packWords words

/-- 41_frame_encoder.md rule R131. -/
def bodyRES (unit : Byte) : List Byte := [unit, 0x07]

/-- 41_frame_encoder.md rule R132: sub-function 0x0000, then the data. -/
def bodyDIAG (unit : Byte) (bytes : List Byte) : List Byte := [unit, 0x08] ++ [0x00, 0x00] ++ bytes

/-- What an extraction rule answers: a value, a wrong echo, or a read outside the buffer (rule R11). -/
inductive Extraction where
  | value (v : DecodeResult)
  | wrongEcho
  | unreadable
  deriving DecidableEq, Repr

/-- A value made of `n` bytes at offset `i` of a response. -/
def extractAt (rx : List Byte) (i n : Nat) (read : List Byte → DecodeResult) : Extraction :=
  match memRead rx i n with
  | some data => .value (read data)
  | none => .unreadable

/-- Bit vectors: packed bits from offset 3 (43_response_decoder.md rules R172, R173). -/
def extractBits (s : State) (rx : List Byte) : Extraction :=
  extractAt rx 3 (ceil8 s.ctx.count.toNat) (fun data => .bits (unpackBits data s.ctx.count.toNat))

/-- Register arrays: register i at offsets 3+2i and 4+2i (43_response_decoder.md rule R174). -/
def extractRegs (s : State) (rx : List Byte) : Extraction :=
  extractAt rx 3 (2 * s.ctx.count.toNat) (fun data => .regs (unpackWords data))

/-- A single register at offsets 3 and 4 (43_response_decoder.md rule R175). -/
def extractReg (rx : List Byte) : Extraction :=
  match memRead rx 3 2 with
  | some [high, low] => .value (.reg (joinBytes high low))
  | _ => .unreadable

/-- Write confirmation: response bytes 2 to 5 equal request bytes 2 to 5 (43_response_decoder.md rules R176 to R179). -/
def extractEcho (s : State) (rx : List Byte) : Extraction :=
  match memRead rx 2 4, memRead s.txbuf 2 4 with
  | some got, some sent => if got = sent then .value .writeOk else .wrongEcho
  | _, _ => .unreadable

/-- The exception-status byte at offset 2 (43_response_decoder.md rule R180). -/
def extractStatus (rx : List Byte) : Extraction :=
  match memRead rx 2 1 with
  | some [e] => .value (.excStatus e)
  | _ => .unreadable

/-- The echoed data from offset 4 (43_response_decoder.md rule R181). -/
def extractData (s : State) (rx : List Byte) : Extraction :=
  extractAt rx 4 s.ctx.count.toNat .echo

end Sys2Proof.Machine
end

