-- ==== Sys2Proof/Machine/Decoder.lean ====
section
/-! DEFINITION. DECODE (43_response_decoder.md rules R170 to R184), one meaning per function code. -/

namespace Sys2Proof.Machine

/-- What DECODE does once length and CRC are right: commit the value, or report a wrong echo (rules R170, R171). -/
def finishDecode (x : Extraction) (s : State) : Host.Outcome State Fault Refusal :=
  match x with
  | .value v => .next (commitResult v s)
  | .wrongEcho => .next (raiseError .echoMismatch s)
  | .unreadable => .fault .readOutsideBuffer

/-- DECODE's CRC check, over all bytes but the trailing two (rule R170), in the private accumulator. -/
def checkCrc (rx : List Byte) (x : Extraction) (s : State) : Host.Outcome State Fault Refusal :=
  match receivedCrc rx with
  | none => .fault .readOutsideBuffer
  | some received =>
    if crc (coveredBytes rx) = received then finishDecode x (setPrivAcc s (crc (coveredBytes rx)))
    else .next (raiseError .checksumMismatch (setPrivAcc s (crc (coveredBytes rx))))

/-- The sequence error of rule R170: CST only; the private accumulator was set at the start (10_state.md rule R33). -/
def sequenceError (s : State) : State := failCommand .sequenceError (setPrivAcc s crcInitial)

/-- DECODE of a function code of the set, its extraction given: the checks in the order of rule R170
(60_exceptions.md rule R223). -/
def decodeResponse (fc : Fc) (rx : List Byte) (x : Extraction) (s : State) : Host.Outcome State Fault Refusal :=
  if s.ctx.valid = false ∨ fc.toByte ≠ s.ctx.fc then .next (sequenceError s)
  else if rx.length ≠ s.ctx.explen.toNat then
    .next (raiseError .invalidResponseLength (setPrivAcc s crcInitial))
  else checkCrc rx x s

/-- DECODE.RC (rule R172). -/
def execDecodeRC (rx : List Byte) (s : State) : Host.Outcome State Fault Refusal :=
  decodeResponse .rc rx (extractBits s rx) s

/-- DECODE.RDI (rule R173). -/
def execDecodeRDI (rx : List Byte) (s : State) : Host.Outcome State Fault Refusal :=
  decodeResponse .rdi rx (extractBits s rx) s

/-- DECODE.RHR (rule R175). -/
def execDecodeRHR (rx : List Byte) (s : State) : Host.Outcome State Fault Refusal :=
  decodeResponse .rhr rx (extractReg rx) s

/-- DECODE.RIR (rule R174). -/
def execDecodeRIR (rx : List Byte) (s : State) : Host.Outcome State Fault Refusal :=
  decodeResponse .rir rx (extractRegs s rx) s

/-- DECODE.WSC (rule R176). -/
def execDecodeWSC (rx : List Byte) (s : State) : Host.Outcome State Fault Refusal :=
  decodeResponse .wsc rx (extractEcho s rx) s

/-- DECODE.WSR (rule R177). -/
def execDecodeWSR (rx : List Byte) (s : State) : Host.Outcome State Fault Refusal :=
  decodeResponse .wsr rx (extractEcho s rx) s

/-- DECODE.RES (rule R180). -/
def execDecodeRES (rx : List Byte) (s : State) : Host.Outcome State Fault Refusal :=
  decodeResponse .res rx (extractStatus rx) s

/-- DECODE.DIAG (rule R181). -/
def execDecodeDIAG (rx : List Byte) (s : State) : Host.Outcome State Fault Refusal :=
  decodeResponse .diag rx (extractData s rx) s

/-- DECODE.WMC (rule R178). -/
def execDecodeWMC (rx : List Byte) (s : State) : Host.Outcome State Fault Refusal :=
  decodeResponse .wmc rx (extractEcho s rx) s

/-- DECODE.WMR (rule R179). -/
def execDecodeWMR (rx : List Byte) (s : State) : Host.Outcome State Fault Refusal :=
  decodeResponse .wmr rx (extractEcho s rx) s

/-- DECODE with a byte that is no function code: a sequence error (rule R170, 30_encoding.md rule R74; log entry 11). -/
def execDecodeInvalid (_fc : Byte) (s : State) : Host.Outcome State Fault Refusal := .next (sequenceError s)

end Sys2Proof.Machine
end

