-- ==== Sys2Proof/Machine/Encode.lean ====
section
/-! DEFINITION. ENCODE (41_frame_encoder.md rules R120 to R134), one meaning per function code. -/

namespace Sys2Proof.Machine

/-- ENCODE of a valid request: TXBUF, CTX, RESULT NONE, PHASE BUILT (rule R122). The private accumulator ends at the
body's CRC (10_state.md rule R33). -/
def latchRequest (fc : Fc) (unit : Byte) (body : List Byte) (count explen : Word) (s : State) : State :=
  setPrivAcc
    { writeTxbuf s (withCrc body) with
      ctx := { valid := true, fc := fc.toByte, unit := unit, count := count, explen := explen }
      result := .none
      status := s.status.built }
    (crc body)

/-- ENCODE of an invalid request: TXBUF empty, CTX not valid with its other fields unspecified, INVALID_REQUEST
(rule R122, 60_exceptions.md rule R224). The private accumulator was set at the start (10_state.md rule R33). -/
def refuseRequest (s : State) : State :=
  setPrivAcc
    (raiseError .invalidRequest { writeTxbuf s [] with ctx := freeCtx s.draws, draws := s.draws + 1 })
    crcInitial

/-- ENCODE of a function code of the set, its body and its item count given (rule R122). -/
def encodeRequest (fc : Fc) (ops : Ports) (body : List Byte) (count : Word) (s : State) :
    Host.Outcome State Fault Refusal :=
  if requestValid s.config fc ops then
    .next (latchRequest fc ops.unit body count (BitVec.ofNat 16 (expLen fc ops)) s)
  else .next (refuseRequest s)

/-- ENCODE.RC (rule R123). -/
def execEncodeRC (unit : Byte) (addr count : Word) (s : State) : Host.Outcome State Fault Refusal :=
  encodeRequest .rc { Ports.idle with unit := unit, addr := addr, count := count } (bodyRC unit addr count) count s

/-- ENCODE.RDI (rule R124). -/
def execEncodeRDI (unit : Byte) (addr count : Word) (s : State) : Host.Outcome State Fault Refusal :=
  encodeRequest .rdi { Ports.idle with unit := unit, addr := addr, count := count } (bodyRDI unit addr count) count s

/-- ENCODE.RHR (rule R126): COUNT is not read. -/
def execEncodeRHR (unit : Byte) (addr : Word) (s : State) : Host.Outcome State Fault Refusal :=
  encodeRequest .rhr { Ports.idle with unit := unit, addr := addr } (bodyRHR unit addr) 1 s

/-- ENCODE.RIR (rule R125). -/
def execEncodeRIR (unit : Byte) (addr count : Word) (s : State) : Host.Outcome State Fault Refusal :=
  encodeRequest .rir { Ports.idle with unit := unit, addr := addr, count := count } (bodyRIR unit addr count) count s

/-- ENCODE.WSC (rule R127). -/
def execEncodeWSC (unit : Byte) (addr : Word) (state : Bool) (s : State) : Host.Outcome State Fault Refusal :=
  encodeRequest .wsc { Ports.idle with unit := unit, addr := addr, state := state } (bodyWSC unit addr state) 1 s

/-- ENCODE.WSR (rule R128). -/
def execEncodeWSR (unit : Byte) (addr value : Word) (s : State) : Host.Outcome State Fault Refusal :=
  encodeRequest .wsr { Ports.idle with unit := unit, addr := addr, value := value } (bodyWSR unit addr value) 1 s

/-- ENCODE.RES (rule R131). -/
def execEncodeRES (unit : Byte) (s : State) : Host.Outcome State Fault Refusal :=
  encodeRequest .res { Ports.idle with unit := unit } (bodyRES unit) 0 s

/-- ENCODE.DIAG (rule R132). -/
def execEncodeDIAG (unit : Byte) (bytes : List Byte) (s : State) : Host.Outcome State Fault Refusal :=
  encodeRequest .diag { Ports.idle with unit := unit, bytes := bytes } (bodyDIAG unit bytes)
    (BitVec.ofNat 16 bytes.length) s

/-- ENCODE.WMC (rule R129). -/
def execEncodeWMC (unit : Byte) (addr : Word) (bits : List Bool) (s : State) : Host.Outcome State Fault Refusal :=
  encodeRequest .wmc { Ports.idle with unit := unit, addr := addr, bits := bits } (bodyWMC unit addr bits)
    (BitVec.ofNat 16 bits.length) s

/-- ENCODE.WMR (rule R130). -/
def execEncodeWMR (unit : Byte) (addr : Word) (words : List Word) (s : State) : Host.Outcome State Fault Refusal :=
  encodeRequest .wmr { Ports.idle with unit := unit, addr := addr, words := words } (bodyWMR unit addr words)
    (BitVec.ofNat 16 words.length) s

/-- ENCODE with a byte that is no function code: `valid` is false (rule R133). -/
def execEncodeInvalid (_fc : Byte) (s : State) : Host.Outcome State Fault Refusal := .next (refuseRequest s)

end Sys2Proof.Machine
end

