-- ==== Sys2Proof/Machine/Resolve.lean ====
section
/-! DEFINITION. RESOLVE_LEN (42_length_resolver.md rules R150 to R152), one meaning per function code. -/

namespace Sys2Proof.Machine

/-- RESOLVE_LEN refuses: LENOUT 0 and a command-level INVALID_REQUEST (rule R151, 60_exceptions.md rule R226). -/
def refuseLength (s : State) : State := failCommand .invalidRequest { s with lenout := 0x0000 }

/-- RESOLVE_LEN of a function code of the set (rule R151). -/
def resolveLength (fc : Fc) (ops : Ports) (s : State) : Host.Outcome State Fault Refusal :=
  if requestValid s.config fc ops then
    .next (complete { s with lenout := BitVec.ofNat 16 (expLen fc ops) })
  else .next (refuseLength s)

/-- RESOLVE_LEN.RC. -/
def execResolveRC (count : Word) (s : State) : Host.Outcome State Fault Refusal :=
  resolveLength .rc { Ports.idle with count := count } s

/-- RESOLVE_LEN.RDI. -/
def execResolveRDI (count : Word) (s : State) : Host.Outcome State Fault Refusal :=
  resolveLength .rdi { Ports.idle with count := count } s

/-- RESOLVE_LEN.RHR. -/
def execResolveRHR (s : State) : Host.Outcome State Fault Refusal := resolveLength .rhr Ports.idle s

/-- RESOLVE_LEN.RIR. -/
def execResolveRIR (count : Word) (s : State) : Host.Outcome State Fault Refusal :=
  resolveLength .rir { Ports.idle with count := count } s

/-- RESOLVE_LEN.WSC. -/
def execResolveWSC (s : State) : Host.Outcome State Fault Refusal := resolveLength .wsc Ports.idle s

/-- RESOLVE_LEN.WSR. -/
def execResolveWSR (s : State) : Host.Outcome State Fault Refusal := resolveLength .wsr Ports.idle s

/-- RESOLVE_LEN.RES. -/
def execResolveRES (s : State) : Host.Outcome State Fault Refusal := resolveLength .res Ports.idle s

/-- RESOLVE_LEN.DIAG. -/
def execResolveDIAG (bytes : List Byte) (s : State) : Host.Outcome State Fault Refusal :=
  resolveLength .diag { Ports.idle with bytes := bytes } s

/-- RESOLVE_LEN.WMC. -/
def execResolveWMC (bits : List Bool) (s : State) : Host.Outcome State Fault Refusal :=
  resolveLength .wmc { Ports.idle with bits := bits } s

/-- RESOLVE_LEN.WMR. -/
def execResolveWMR (words : List Word) (s : State) : Host.Outcome State Fault Refusal :=
  resolveLength .wmr { Ports.idle with words := words } s

/-- RESOLVE_LEN with a byte that is no function code: `valid` is false (rule R151, 30_encoding.md rule R74). -/
def execResolveInvalid (_fc : Byte) (s : State) : Host.Outcome State Fault Refusal := .next (refuseLength s)

end Sys2Proof.Machine
end

