-- ==== Sys2Proof/Machine/Dispatch.lean ====
section
/-! DEFINITION. The meaning of each command: one arm per row of spec/opcode_table.json. -/

namespace Sys2Proof.Machine

def exec (i : Instr) (s : State) : Host.Outcome State Fault Refusal :=
  match i with
  | .crcInit arg => Sys2Proof.Machine.execCrcInit arg s
  | .crcUpdate data => Sys2Proof.Machine.execCrcUpdate data s
  | .crcCompute arg bytes => Sys2Proof.Machine.execCrcCompute arg bytes s
  | .crcVerify arg bytes rxcrc => Sys2Proof.Machine.execCrcVerify arg bytes rxcrc s
  | .resolveRC count => Sys2Proof.Machine.execResolveRC count s
  | .resolveRDI count => Sys2Proof.Machine.execResolveRDI count s
  | .resolveRHR => Sys2Proof.Machine.execResolveRHR s
  | .resolveRIR count => Sys2Proof.Machine.execResolveRIR count s
  | .resolveWSC => Sys2Proof.Machine.execResolveWSC s
  | .resolveWSR => Sys2Proof.Machine.execResolveWSR s
  | .resolveRES => Sys2Proof.Machine.execResolveRES s
  | .resolveDIAG bytes => Sys2Proof.Machine.execResolveDIAG bytes s
  | .resolveWMC bits => Sys2Proof.Machine.execResolveWMC bits s
  | .resolveWMR words => Sys2Proof.Machine.execResolveWMR words s
  | .resolveInvalid fc => Sys2Proof.Machine.execResolveInvalid fc s
  | .encodeRC unit addr count => Sys2Proof.Machine.execEncodeRC unit addr count s
  | .encodeRDI unit addr count => Sys2Proof.Machine.execEncodeRDI unit addr count s
  | .encodeRHR unit addr => Sys2Proof.Machine.execEncodeRHR unit addr s
  | .encodeRIR unit addr count => Sys2Proof.Machine.execEncodeRIR unit addr count s
  | .encodeWSC unit addr state => Sys2Proof.Machine.execEncodeWSC unit addr state s
  | .encodeWSR unit addr value => Sys2Proof.Machine.execEncodeWSR unit addr value s
  | .encodeRES unit => Sys2Proof.Machine.execEncodeRES unit s
  | .encodeDIAG unit bytes => Sys2Proof.Machine.execEncodeDIAG unit bytes s
  | .encodeWMC unit addr bits => Sys2Proof.Machine.execEncodeWMC unit addr bits s
  | .encodeWMR unit addr words => Sys2Proof.Machine.execEncodeWMR unit addr words s
  | .encodeInvalid fc => Sys2Proof.Machine.execEncodeInvalid fc s
  | .decodeRC rx => Sys2Proof.Machine.execDecodeRC rx s
  | .decodeRDI rx => Sys2Proof.Machine.execDecodeRDI rx s
  | .decodeRHR rx => Sys2Proof.Machine.execDecodeRHR rx s
  | .decodeRIR rx => Sys2Proof.Machine.execDecodeRIR rx s
  | .decodeWSC rx => Sys2Proof.Machine.execDecodeWSC rx s
  | .decodeWSR rx => Sys2Proof.Machine.execDecodeWSR rx s
  | .decodeRES rx => Sys2Proof.Machine.execDecodeRES rx s
  | .decodeDIAG rx => Sys2Proof.Machine.execDecodeDIAG rx s
  | .decodeWMC rx => Sys2Proof.Machine.execDecodeWMC rx s
  | .decodeWMR rx => Sys2Proof.Machine.execDecodeWMR rx s
  | .decodeInvalid fc => Sys2Proof.Machine.execDecodeInvalid fc s
  | .abortTransportError => Sys2Proof.Machine.execAbortTransportError s
  | .abortTimeout => Sys2Proof.Machine.execAbortTimeout s
  | .abortInvalidResponseLength => Sys2Proof.Machine.execAbortInvalidResponseLength s
  | .abortIllegal code => Sys2Proof.Machine.execAbortIllegal code s
  | .reset arg => Sys2Proof.Machine.execReset arg s
  | .illegalOpc00 arg => Sys2Proof.Machine.execIllegalOpc00 arg s
  | .illegalOpc0A0B low => Sys2Proof.Machine.execIllegalOpc0A0B low s
  | .illegalOpc0C0F low => Sys2Proof.Machine.execIllegalOpc0C0F low s
  | .illegalOpc101F low => Sys2Proof.Machine.execIllegalOpc101F low s
  | .illegalOpc203F low => Sys2Proof.Machine.execIllegalOpc203F low s
  | .illegalOpc407F low => Sys2Proof.Machine.execIllegalOpc407F low s
  | .illegalOpc80FF low => Sys2Proof.Machine.execIllegalOpc80FF low s

end Sys2Proof.Machine
end

