-- ==== Sys2Proof/Machine/Step.lean ====
section
/-! DEFINITION. One step: the next command the host presents is decoded and executed (10_state.md rules R20, R22). -/

namespace Sys2Proof.Machine

/-- One step. A presented command is consumed when it is issued (20_memory.md rule R52) and executed whole. With nothing
presented the block holds its state (60_exceptions.md rule R240; log entry 1). -/
def step (s : State) : Host.Outcome State Fault Refusal :=
  match s.commands with
  | [] => .next s
  | c :: rest =>
    match decode c with
    | .ok i => exec i { s with commands := rest }
    | .error e => .refused (.malformedCommand e)

/-- The state with the host presenting the command whose opcode-table bits are `w`, operand ports idle, before anything
else it presents. -/
def State.withFetchWord (s : State) (nbits w : Nat) : State :=
  { s with commands := commandOfTableWord nbits w :: s.commands }

end Sys2Proof.Machine
end

