-- ==== Sys2Proof/Machine/Protocol.lean ====
section
/-! DEFINITION. The host protocol that drives the block (60_exceptions.md rules R225 and R229 to R237), the pseudo-instructions CRC and
XACT (30_encoding.md rules R78, R79) and the host's views of a register value (93_implementation_defined.md entry A9). The
host is no part of the block: nothing here is called by `step`. What the transport answers is an argument (log entry 9). -/

namespace Sys2Proof.Machine

/-- What `write` answers (60_exceptions.md rule R229). -/
inductive WriteOutcome where
  | done | transportError
  deriving DecidableEq, Repr

/-- What the exact-length read answers (60_exceptions.md rules R229, R232). `bytes` are handed to DECODE whatever their
number, which DECODE checks; `short` is a short read the host reports itself (rule R232 allows both). -/
inductive ReadOutcome where
  | bytes (rx : List Byte)
  | short
  | timeout
  | transportError
  deriving DecidableEq, Repr

/-- The host's transaction phases (60_exceptions.md rule R230). -/
inductive HostPhase where
  | idle | sending | awaitingSettle | reading | validating | decoded | failed
  deriving DecidableEq, Repr

/-- A host phase with a request on its way: the host has a transaction outstanding (60_exceptions.md rules R230, R235). -/
def HostPhase.outstanding : HostPhase → Bool
  | .sending | .awaitingSettle | .reading | .validating => true
  | .idle | .decoded | .failed => false

/-- What the host asks of the transport (60_exceptions.md rules R231, R232). -/
inductive HostAction where
  | write (frame : List Byte)
  | settle (delay : Nat)
  | readExact (n timeout : Nat)
  deriving DecidableEq, Repr

/-- The transport action of a host phase: send TXBUF whole, wait SETTLE_DELAY, read exactly CTX.explen bytes under
READ_TIMEOUT (60_exceptions.md rules R231, R232). -/
def hostAction (s : State) : HostPhase → Option HostAction
  | .sending => some (.write s.txbuf)
  | .awaitingSettle => some (.settle Config.settleDelay)
  | .reading => some (.readExact s.ctx.explen.toNat Config.readTimeout)
  | .idle | .validating | .decoded | .failed => none

/-- How the host ends a cancelled transaction (60_exceptions.md rule R236). -/
inductive Closing where
  | abortTransportError | abortTimeout | abortInvalidResponseLength | reset
  deriving DecidableEq, Repr

/-- The command of a closing. -/
def Closing.command : Closing → Instr
  | .abortTransportError => .abortTransportError
  | .abortTimeout => .abortTimeout
  | .abortInvalidResponseLength => .abortInvalidResponseLength
  | .reset => .reset 0x00

/-- A transport failure that the host may answer by a retry and not by an ABORT (60_exceptions.md rules R229, R232, R237). -/
inductive TransportFailure where
  | write | shortRead | readTimeout | readError
  deriving DecidableEq, Repr

/-- The host phase in which a transport failure can happen (60_exceptions.md rules R231, R232). -/
def TransportFailure.happensIn : TransportFailure → HostPhase
  | .write => .sending
  | .shortRead | .readTimeout | .readError => .reading

/-- The two ways to retry: "retry by a new ENCODE or a retransmission" (60_exceptions.md rules R225, R237). -/
inductive Retry where
  | newEncode (fc : Fc) (ops : Ports)
  | retransmission
  deriving DecidableEq, Repr

/-- What happens to a transaction. `retry` answers a transport failure without reporting it by ABORT: rule R237 asks for the
report only where the transaction is to end FAILED. `retransmit` sends the request of a FAILED transaction again. -/
inductive HostEvent where
  | request (fc : Fc) (ops : Ports)
  | written (w : WriteOutcome)
  | settled
  | read (r : ReadOutcome)
  | validate
  | cancel (how : Closing)
  | retry (f : TransportFailure) (how : Retry)
  | retransmit
  deriving DecidableEq, Repr

/-- One transaction of the host, with the block it owns (60_exceptions.md rules R230, R235, R239). `resent` says that the
request on its way is a retransmission out of FAILED, during which the block stays FAILED (rule R225). -/
structure Transaction where
  phase  : HostPhase
  fc     : Fc
  rx     : List Byte
  resent : Bool
  block  : State
  deriving DecidableEq, Repr

/-- The PHASE the block shows in a host phase: BUILT while the request is on its way (60_exceptions.md rule R230), but FAILED
while it is a retransmission out of FAILED, which no command announces to the block (rule R225; log entry 17); none where it depends on the
transaction before. -/
def Transaction.shown (x : Transaction) : Option Phase :=
  match x.phase with
  | .idle => none
  | .sending | .awaitingSettle | .reading | .validating => some (if x.resent then .failed else .built)
  | .decoded => some .decoded
  | .failed => some .failed

/-- The block after one command, if it answers a next state. -/
def issue (i : Instr) (s : State) : Option State :=
  match exec i s with
  | .next t => some t
  | .fault _ => none
  | .refused _ => none

/-- The block executes one command and the host moves to `phase`. -/
def Transaction.drive (x : Transaction) (i : Instr) (phase : HostPhase) : Option Transaction :=
  (issue i x.block).map (fun t => { x with phase := phase, block := t })

/-- The block executes ENCODE or DECODE and the host moves as PHASE says (60_exceptions.md rules R230, R233). -/
def Transaction.judge (x : Transaction) (i : Instr) (good : Phase) (phase : HostPhase) : Option Transaction :=
  (issue i x.block).map
    (fun t => { x with phase := if t.status.phase = good then phase else .failed, block := t })

/-- The command by which the host reports a failed read; none when there are bytes to hand on (60_exceptions.md rule R232). -/
def readFailure : ReadOutcome → Option Instr
  | .bytes _ => none
  | .short => some .abortInvalidResponseLength
  | .timeout => some .abortTimeout
  | .transportError => some .abortTransportError

/-- ENCODE of a new request: Sending on success, Failed on INVALID_REQUEST (60_exceptions.md rule R230). -/
def Transaction.encodeNew (x : Transaction) (fc : Fc) (ops : Ports) : Option Transaction :=
  ({ x with fc := fc, rx := [], resent := false }).judge (encodeOf fc ops) .built .sending

/-- A request starts a transaction; with one outstanding none can start (60_exceptions.md rule R235). -/
def Transaction.start (x : Transaction) (fc : Fc) (ops : Ports) : Option Transaction :=
  if x.phase.outstanding then none else x.encodeNew fc ops

/-- The host sends TXBUF again after a transport failure: no command, so the block is as it was (60_exceptions.md rules R225,
R237). -/
def Transaction.sendAgain (x : Transaction) : Transaction := { x with phase := .sending, rx := [] }

/-- A retry after a transport failure (60_exceptions.md rule R237). -/
def Transaction.retry (x : Transaction) : Retry → Option Transaction
  | .newEncode fc ops => x.encodeNew fc ops
  | .retransmission => some x.sendAgain

/-- A retransmission out of FAILED, with the request still in TXBUF and CTX (44_control.md rule R200, corner cases;
60_exceptions.md rules R225, R237): the host is in Sending again (log entry 17). -/
def Transaction.retransmit (x : Transaction) : Option Transaction :=
  if x.phase = .failed ∧ x.block.ctx.valid = true then some { x.sendAgain with resent := true } else none

/-- The host protocol: an event in a phase that does not expect it has no successor (60_exceptions.md rules R230 to
R233, R236, R237). -/
def Transaction.advance (x : Transaction) : HostEvent → Option Transaction
  | .request fc ops => x.start fc ops
  | .written .done => if x.phase = .sending then some { x with phase := .awaitingSettle } else none
  | .written .transportError => if x.phase = .sending then x.drive .abortTransportError .failed else none
  | .settled => if x.phase = .awaitingSettle then some { x with phase := .reading } else none
  | .read r =>
    if x.phase = .reading then
      match r, readFailure r with
      | .bytes rx, _ => some { x with phase := .validating, rx := rx }
      | _, some i => x.drive i .failed
      | _, none => none
    else none
  | .validate => if x.phase = .validating then x.judge (decodeOf x.fc x.rx) .decoded .decoded else none
  | .cancel how =>
    match x.phase with
    | .sending | .awaitingSettle | .reading => x.drive how.command (if how = .reset then .idle else .failed)
    | .idle | .validating | .decoded | .failed => none
  | .retry f how => if x.phase = f.happensIn then x.retry how else none
  | .retransmit => x.retransmit

/-- The pseudo-instruction XACT (30_encoding.md rule R79) with the transport's answers given: the block after it. -/
def xact (fc : Fc) (ops : Ports) (w : WriteOutcome) (r : ReadOutcome) (s : State) : Option State :=
  (issue (encodeOf fc ops) s).bind fun t =>
    if t.status.phase ≠ .built then some t
    else match w, r with
      | .transportError, _ => issue .abortTransportError t
      | .done, .bytes rx => issue (decodeOf fc rx) t
      | .done, .short => issue .abortInvalidResponseLength t
      | .done, .timeout => issue .abortTimeout t
      | .done, .transportError => issue .abortTransportError t

/-- The pseudo-instruction CRC (30_encoding.md rule R78), as the commands the host presents. -/
def crcPseudo (bytes : List Byte) : List Command :=
  encode (.crcInit 0x00) :: bytes.map (fun b => encode (.crcUpdate b))

/-- The host's signed reading of a register value, `sext_32` (43_response_decoder.md rule R175, 93 entry A9). -/
def signedView (v : Word) : BitVec 32 := v.signExtend 32

/-- The source's widening of a register value, `zext_32` (93 entry A9). -/
def widenedView (v : Word) : BitVec 32 := v.setWidth 32

end Sys2Proof.Machine
end

