-- ==== Sys2Proof/Safety.lean ====
section
/-! DEFINITION. What counts as a safe run: the invariant that every state a run reaches meets (10_state.md rules R24, R25, R27,
R30 to R32), and the transitions of PHASE (rule R25). -/

namespace Sys2Proof.Machine

/-- The request length that a latched item count stands for (30_encoding.md rule R67). -/
def requestLengthOf : Fc → Nat → Nat
  | .rc, _ | .rdi, _ | .rhr, _ | .rir, _ | .wsc, _ | .wsr, _ => 8
  | .res, _ => 4
  | .diag, n => 6 + n
  | .wmc, n => 9 + ceil8 n
  | .wmr, n => 9 + 2 * n

/-- The response length that a latched item count stands for (30_encoding.md rule R68). -/
def responseLengthOf : Fc → Nat → Nat
  | .rc, n | .rdi, n => 5 + ceil8 n
  | .rhr, _ => 7
  | .rir, n => 5 + 2 * n
  | .wsc, _ | .wsr, _ | .wmc, _ | .wmr, _ => 8
  | .res, _ => 5
  | .diag, n => 6 + n

/-- The item counts a request can have (41_frame_encoder.md rules R120, R123 to R132). -/
def countPossible : Fc → Nat → Bool
  | .rc, n | .rdi, n | .rir, n | .wmc, n | .wmr, n => decide (1 ≤ n)
  | .rhr, n | .wsc, n | .wsr, n => decide (n = 1)
  | .res, n => decide (n = 0)
  | .diag, _ => true

/-- CTX holds the parameters of the request of function `fc` that is in TXBUF (10_state.md rule R30). -/
structure ContextDescribes (s : State) (fc : Fc) : Prop where
  code   : s.ctx.fc = fc.toByte
  count  : countPossible fc s.ctx.count.toNat = true
  explen : s.ctx.explen.toNat = responseLengthOf fc s.ctx.count.toNat
  bound  : s.ctx.explen.toNat ≤ s.config.maxAdu
  length : s.txbuf.length = requestLengthOf fc s.ctx.count.toNat
  head   : s.txbuf.take 2 = [s.ctx.unit, s.ctx.fc]
  crc    : crcValid s.txbuf = true

/-- RESULT is of the variant and the size that a DECODE of function `fc` with item count `n` produces (10_state.md rule
R32). -/
def resultFits : Fc → Nat → DecodeResult → Prop
  | .rc, n, r | .rdi, n, r => ∃ b, r = .bits b ∧ b.length = n
  | .rir, n, r => ∃ ws, r = .regs ws ∧ ws.length = n
  | .rhr, _, r => ∃ v, r = .reg v
  | .res, _, r => ∃ e, r = .excStatus e
  | .diag, n, r => ∃ d, r = .echo d ∧ d.length = n
  | .wsc, _, r | .wsr, _, r | .wmc, _, r | .wmr, _, r => r = .writeOk

/-- The invariant of the block. -/
structure State.Inv (s : State) : Prop where
  /-- TXBUF has at most MAX_ADU bytes (rule R31). -/
  txbufBound : s.txbuf.length ≤ s.config.maxAdu
  /-- CTX.valid = 1: CTX describes the request in TXBUF (rule R30). -/
  context : s.ctx.valid = true → ∃ fc, ContextDescribes s fc
  /-- CTX.valid = 0: TXBUF is empty (rules R31, R36). -/
  noContext : s.ctx.valid = false → s.txbuf = []
  /-- ERR holds a nonzero value exactly when PHASE = FAILED (rule R27). -/
  errFailed : s.status.err ≠ .ok ↔ s.status.phase = .failed
  /-- ERR never holds 7 or 8 (rule R24). -/
  errCode : s.status.err ≠ .sequenceError ∧ s.status.err ≠ .illegalCommand
  /-- BUILT and DECODED are phases of a built request, IDLE of none (rule R25). -/
  phaseContext : (s.status.phase = .built ∨ s.status.phase = .decoded → s.ctx.valid = true) ∧
    (s.status.phase = .idle → s.ctx.valid = false)
  /-- RESULT is NONE whenever PHASE is not DECODED (rule R32). -/
  resultNone : s.status.phase ≠ .decoded → s.result = .none
  /-- In DECODED, RESULT is a value of the latched request (rule R32). -/
  resultValue : s.status.phase = .decoded → ∀ fc, s.ctx.fc = Fc.toByte fc → resultFits fc s.ctx.count.toNat s.result

/-- Every command the host presents has port values within their types (30_encoding.md rule R63). -/
def State.portsWf (s : State) : Bool := s.commands.all (fun c => c.ports.wf)

/-- The host's transaction and the block agree (60_exceptions.md rules R225, R230): the block meets its invariant, shows the
PHASE of the host's phase, holds a built request while one is on its way, and whatever request it holds is one of the host's
function. -/
structure Transaction.Agrees (x : Transaction) : Prop where
  block   : x.block.Inv
  shown   : ∀ p, x.shown = some p → x.block.status.phase = p
  request : x.phase.outstanding = true → x.block.ctx.valid = true
  code    : x.phase ≠ .idle → x.block.ctx.valid = true → x.block.ctx.fc = x.fc.toByte

/-- The families of commands by what they may write (10_state.md, the write matrix of rules R23 to R33). ABORT with a code
outside 1 to 3 belongs to the illegal ones (44_control.md rule R202). -/
inductive Family where
  | crcInit | crcUpdate | crcCompute | crcVerify | resolve | encode | decode | abort | reset | illegal
  deriving DecidableEq, Repr

/-- The family of a command. -/
def family : Instr → Family
  | .crcInit _ => .crcInit
  | .crcUpdate _ => .crcUpdate
  | .crcCompute _ _ => .crcCompute
  | .crcVerify _ _ _ => .crcVerify
  | .resolveRC _ | .resolveRDI _ | .resolveRHR | .resolveRIR _ | .resolveWSC | .resolveWSR => .resolve
  | .resolveRES | .resolveDIAG _ | .resolveWMC _ | .resolveWMR _ | .resolveInvalid _ => .resolve
  | .encodeRC _ _ _ | .encodeRDI _ _ _ | .encodeRHR _ _ | .encodeRIR _ _ _ | .encodeWSC _ _ _ | .encodeWSR _ _ _ => .encode
  | .encodeRES _ | .encodeDIAG _ _ | .encodeWMC _ _ _ | .encodeWMR _ _ _ | .encodeInvalid _ => .encode
  | .decodeRC _ | .decodeRDI _ | .decodeRHR _ | .decodeRIR _ | .decodeWSC _ | .decodeWSR _ => .decode
  | .decodeRES _ | .decodeDIAG _ | .decodeWMC _ | .decodeWMR _ | .decodeInvalid _ => .decode
  | .abortTransportError | .abortTimeout | .abortInvalidResponseLength => .abort
  | .reset _ => .reset
  | .abortIllegal _ | .illegalOpc00 _ | .illegalOpc0A0B _ | .illegalOpc0C0F _ | .illegalOpc101F _ | .illegalOpc203F _ => .illegal
  | .illegalOpc407F _ | .illegalOpc80FF _ => .illegal

/-- A RESOLVE_LEN command (42_length_resolver.md). -/
def isResolve (i : Instr) : Bool := family i == .resolve

/-- An ENCODE command (41_frame_encoder.md). -/
def isEncode (i : Instr) : Bool := family i == .encode

/-- A DECODE command (43_response_decoder.md). -/
def isDecode (i : Instr) : Bool := family i == .decode

/-- An ABORT command with a code of the set (44_control.md rule R200). -/
def isAbort (i : Instr) : Bool := family i == .abort

/-- An illegal command (44_control.md rule R202). -/
def isIllegal (i : Instr) : Bool := family i == .illegal

/-- A RESET command (44_control.md rule R201). -/
def isReset (i : Instr) : Bool := family i == .reset

/-- CRC_VERIFY (40_crc.md rule R106). -/
def isVerify (i : Instr) : Bool := family i == .crcVerify

/-- CRC_UPDATE (40_crc.md rule R104), the one command that reads ACC. -/
def isUpdate (i : Instr) : Bool := family i == .crcUpdate

/-- A command that writes ACC (10_state.md rule R23). -/
def writesAcc (i : Instr) : Bool := [Family.crcInit, .crcUpdate, .crcCompute, .reset].contains (family i)

end Sys2Proof.Machine
end

