-- ==== Sys2Proof/Certificates/Slice0/Obligations.lean ====
section
/-! DEFINITION. The statements for the provers, each a numbered rule of spec/ (or an inference from several) about every state
of the block. Where a statement says `∃ p`, `p` is the private accumulator's value, of which the spec says "any value" (93 entry
A15); where it says `∃ x d`, `x` is the CTX that a failed ENCODE leaves, of which only CTX.valid is specified (93 entry A1), and
`d` the model's counter of free values: no statement rests on them. -/

namespace Sys2Proof.Claims

open Sys2Proof.Machine

/-- The command word OPC*256 + ARG8 (30_encoding.md rule R77). -/
def word (opc : Nat) (arg : Byte) : Word := BitVec.ofNat 16 (opc * 256 + arg.toNat)

/-- A 16-bit field on the wire, high byte first (20_memory.md rule R43). -/
def wire (v : Word) : List Byte := [v.extractLsb' 8 8, v.extractLsb' 0 8]

/-- The 16-bit value at offset `i`, high byte first (00_scope.md rule R9). -/
def fieldAt (rx : List Byte) (i : Nat) : Word :=
  BitVec.ofNat 16 ((rx.getD i 0).toNat * 256 + (rx.getD (i + 1) 0).toNat)

/-- STATUS with another CST and nothing else changed. -/
def withCst (s : State) (e : ErrCode) : State := { s with status := { s.status with cst := e } }

/-- The state after RESOLVE_LEN (42_length_resolver.md rule R151). -/
def resolved (s : State) (accepted : Prop) [Decidable accepted] (len : Nat) : State :=
  if accepted then withCst { s with lenout := BitVec.ofNat 16 len } .ok
  else withCst { s with lenout := 0 } .invalidRequest

/-- The state after a successful ENCODE (41_frame_encoder.md rule R122). -/
def built (s : State) (fc unit : Byte) (count : Word) (len : Nat) (body : List Byte) (p : Word) : State :=
  { s with
    txbuf := withCrc body
    ctx := { valid := true, fc := fc, unit := unit, count := count, explen := BitVec.ofNat 16 len }
    result := .none
    status := { s.status with phase := .built, err := .ok, cst := .ok }
    privAcc := p }

/-- The state after a failed ENCODE (41_frame_encoder.md rule R122). -/
def refused (s : State) (x : Ctx) (p : Word) (d : Nat) : State :=
  { s with
    txbuf := []
    ctx := x
    result := .none
    status := { s.status with phase := .failed, err := .invalidRequest, cst := .invalidRequest }
    privAcc := p
    draws := d }

/-- The state after a DECODE that ends with a transaction error (43_response_decoder.md rule R171). -/
def failed (s : State) (e : ErrCode) (p : Word) : State :=
  { s with result := .none, status := { s.status with phase := .failed, err := e, cst := e }, privAcc := p }

/-- The state after a successful DECODE (43_response_decoder.md rule R171). -/
def decoded (s : State) (v : DecodeResult) (p : Word) : State :=
  { s with result := v, status := { s.status with phase := .decoded, err := .ok, cst := .ok }, privAcc := p }

/-- The state after an ABORT that records the host's error (44_control.md rule R200). -/
def aborted (s : State) (e : ErrCode) : State :=
  { s with result := .none, status := { s.status with phase := .failed, err := e, cst := .ok } }

/-- DECODE's checks, first to last (43_response_decoder.md rule R170), then `last`. -/
def checked (s : State) (fc : Byte) (rx : List Byte) (p : Word) (last : State) : State :=
  if s.ctx.valid = false ∨ s.ctx.fc ≠ fc then { withCst s .sequenceError with privAcc := p }
  else if rx.length ≠ s.ctx.explen.toNat then failed s .invalidResponseLength p
  else if crcValid rx = false then failed s .checksumMismatch p
  else last

/-- A write confirmation's last check (43_response_decoder.md rules R176 to R179). -/
def confirmed (s : State) (rx : List Byte) (p : Word) : State :=
  if (rx.drop 2).take 4 = (s.txbuf.drop 2).take 4 then decoded s .writeOk p else failed s .echoMismatch p

/-- The bits of a bit-vector response (43_response_decoder.md rule R172). -/
def bitsOf (rx : List Byte) (c : Nat) : List Bool :=
  (List.range c).map (fun i => decide ((rx.getD (3 + i / 8) 0 >>> (i % 8)) &&& 1#8 = 1#8))

/-- A context of function code `fc` has the response length `len` of that function (the "Requires" of
43_response_decoder.md rules R172 to R181). -/
def Requires (s : State) (fc : Byte) (len : Nat) : Prop :=
  s.ctx.valid = true → s.ctx.fc = fc → s.ctx.explen.toNat = len

/-- As `Requires`, for a write function: TXBUF has the bytes 2 to 5 that are compared. -/
def RequiresEcho (s : State) (fc : Byte) : Prop :=
  s.ctx.valid = true → s.ctx.fc = fc → s.ctx.explen.toNat = 8 ∧ 6 ≤ s.txbuf.length

/-- An outcome seen through `view`. -/
def seen (view : State → State) : Host.Outcome State Fault Refusal → Host.Outcome State Fault Refusal
  | .next t => .next (view t)
  | .fault r => .fault r
  | .refused r => .refused r

/-- Commands executed one after another, as long as each answers a next state. -/
def execAll : List Instr → State → Option State
  | [], s => some s
  | i :: rest, s => (issue i s).bind (execAll rest)

/-- A command accepted without error. -/
def accepts (i : Instr) (s : State) : Prop := ∃ t, exec i s = .next t ∧ t.status.cst = .ok

end Sys2Proof.Claims

open Sys2Proof Sys2Proof.Machine Sys2Proof.Claims

/-! ### The CRC family -/

/-- 40_crc.md rule R103. -/
def Obligations.CrcInitSetsAccumulator : Prop :=
  ∀ (arg : Byte) (ports : Ports) (s : State),
    decode ⟨word 0x01 arg, ports⟩ = .ok (.crcInit arg) ∧
    exec (.crcInit arg) s = .next (withCst { s with acc := 0xFFFF } .ok)

/-- 40_crc.md rules R100 and R104: the eight shifts one by one, the bit tested before the shift. -/
def Obligations.CrcUpdateFoldsOneByte : Prop :=
  ∀ (data : Byte) (ports : Ports) (s : State),
    decode ⟨word 0x02 data, ports⟩ = .ok (.crcUpdate data) ∧
    ∃ a : Nat → Word, a 0 = s.acc ^^^ data.setWidth 16 ∧
      (∀ k, k < 8 → a (k + 1) = if (a k).getLsbD 0 = true then (a k >>> 1) ^^^ 0xA001#16 else a k >>> 1) ∧
      exec (.crcUpdate data) s = .next (withCst { s with acc := a 8 } .ok)

/-- 40_crc.md rules R101 and R105: one step per byte in order, from 0xFFFF, no final XOR. -/
def Obligations.CrcComputeFoldsEveryByte : Prop :=
  crc [] = 0xFFFF ∧
  (∀ (bytes : List Byte) (b : Byte), crc (bytes ++ [b]) = crcStep (crc bytes) b) ∧
  ∀ (arg : Byte) (ports : Ports) (s : State),
    decode ⟨word 0x03 arg, ports⟩ = .ok (.crcCompute arg ports.bytes) ∧
    exec (.crcCompute arg ports.bytes) s = .next (withCst { s with acc := crc ports.bytes } .ok)

/-- 40_crc.md rule R106: VFY is the comparison, ACC and the transaction are untouched. -/
def Obligations.CrcVerifyOnlyWritesVfy : Prop :=
  ∀ (arg : Byte) (ports : Ports) (s : State),
    decode ⟨word 0x04 arg, ports⟩ = .ok (.crcVerify arg ports.bytes ports.rxcrc) ∧
    ∃ p, exec (.crcVerify arg ports.bytes ports.rxcrc) s =
      .next { s with
        status := { s.status with vfy := if crc ports.bytes = ports.rxcrc then true else false, cst := .ok }
        privAcc := p }

/-- 40_crc.md rule R102 and 20_memory.md rule R44: the CRC stands low byte first behind the bytes it covers. -/
def Obligations.FrameCrcStandsLowByteFirst : Prop :=
  (∀ bytes : List Byte,
    withCrc bytes = bytes ++ [BitVec.ofNat 8 ((crc bytes).toNat % 256), BitVec.ofNat 8 ((crc bytes).toNat / 256)]) ∧
  ∀ (bytes : List Byte) (low high : Byte),
    crcValid (bytes ++ [low, high]) = true ↔ (crc bytes).toNat = low.toNat + 256 * high.toNat

/-- 40_crc.md rule R108. -/
def Obligations.CrcResidueIsZero : Prop :=
  ∀ bytes : List Byte, crc (withCrc bytes) = 0x0000

/-- 40_crc.md rule R109. -/
def Obligations.CrcChangesWithEverySingleBit : Prop :=
  ∀ (bytes : List Byte) (k j : Nat), k < bytes.length → j < 8 →
    crc (bytes.modify k (fun b => b ^^^ (1#8 <<< j))) ≠ crc bytes

/-- 40_crc.md rule R107, first sentence. -/
def Obligations.CrcVerifyAcceptsComputedCrc : Prop :=
  ∀ (x y : Byte) (bytes : List Byte) (s t : State), exec (.crcCompute x bytes) s = .next t →
    ∃ u, exec (.crcVerify y bytes t.acc) t = .next u ∧ u.status.vfy = true ∧ u.acc = t.acc

/-- 30_encoding.md rule R78 and 40_crc.md rule R107: the pseudo-instruction CRC, run step by step, equals CRC_COMPUTE. -/
def Obligations.CrcPseudoEqualsCompute : Prop :=
  ∀ (bytes : List Byte) (rest : List Command) (s : State), s.commands = crcPseudo bytes ++ rest →
    Host.Core.run Sys2Proof.core (bytes.length + 1) s = exec (.crcCompute 0x00 bytes) { s with commands := rest }

/-! ### RESOLVE_LEN -/

/-- 42_length_resolver.md rules R150 and R151 with 41_frame_encoder.md rule R120: the length of each function, or a refusal. -/
def Obligations.ResolveLenGivesResponseLength : Prop :=
  (∀ ports : Ports, ports.wf = true →
    decode ⟨0x0501, ports⟩ = .ok (.resolveRC ports.count) ∧
    decode ⟨0x0502, ports⟩ = .ok (.resolveRDI ports.count) ∧
    decode ⟨0x0503, ports⟩ = .ok .resolveRHR ∧
    decode ⟨0x0504, ports⟩ = .ok (.resolveRIR ports.count) ∧
    decode ⟨0x0505, ports⟩ = .ok .resolveWSC ∧
    decode ⟨0x0506, ports⟩ = .ok .resolveWSR ∧
    decode ⟨0x0507, ports⟩ = .ok .resolveRES ∧
    decode ⟨0x0508, ports⟩ = .ok (.resolveDIAG ports.bytes) ∧
    decode ⟨0x050F, ports⟩ = .ok (.resolveWMC ports.bits) ∧
    decode ⟨0x0510, ports⟩ = .ok (.resolveWMR ports.words) ∧
    (∀ fc : Byte, fc.toNat ∉ [1, 2, 3, 4, 5, 6, 7, 8, 15, 16] →
      decode ⟨word 0x05 fc, ports⟩ = .ok (.resolveInvalid fc))) ∧
  ∀ s : State,
    (∀ c : Word, exec (.resolveRC c) s =
      .next (resolved s (1 ≤ c.toNat ∧ 5 + (c.toNat + 7) / 8 ≤ s.config.maxAdu) (5 + (c.toNat + 7) / 8))) ∧
    (∀ c : Word, exec (.resolveRDI c) s =
      .next (resolved s (1 ≤ c.toNat ∧ 5 + (c.toNat + 7) / 8 ≤ s.config.maxAdu) (5 + (c.toNat + 7) / 8))) ∧
    exec .resolveRHR s = .next (resolved s True 7) ∧
    (∀ c : Word, exec (.resolveRIR c) s =
      .next (resolved s (1 ≤ c.toNat ∧ 5 + 2 * c.toNat ≤ s.config.maxAdu) (5 + 2 * c.toNat))) ∧
    exec .resolveWSC s = .next (resolved s True 8) ∧
    exec .resolveWSR s = .next (resolved s True 8) ∧
    exec .resolveRES s = .next (resolved s True 5) ∧
    (∀ b : List Byte, exec (.resolveDIAG b) s =
      .next (resolved s (6 + b.length ≤ s.config.maxAdu) (6 + b.length))) ∧
    (∀ b : List Bool, exec (.resolveWMC b) s =
      .next (resolved s (1 ≤ b.length ∧ (b.length + 7) / 8 ≤ 255 ∧ 9 + (b.length + 7) / 8 ≤ s.config.maxAdu) 8)) ∧
    (∀ w : List Word, exec (.resolveWMR w) s =
      .next (resolved s (1 ≤ w.length ∧ 2 * w.length ≤ 255 ∧ 9 + 2 * w.length ≤ s.config.maxAdu) 8)) ∧
    (∀ fc : Byte, exec (.resolveInvalid fc) s = .next (resolved s False 0))

/-- 42_length_resolver.md rule R151: RESOLVE_LEN and ENCODE accept exactly the same requests. -/
def Obligations.ResolveLenAcceptsWhatEncodeAccepts : Prop :=
  ∀ (b : Byte) (ops : Ports) (s : State), accepts (readResolve b ops) s ↔ accepts (readEncode b ops) s

/-- 42_length_resolver.md rule R150 and 41_frame_encoder.md rule R122: the length RESOLVE_LEN answers is the one ENCODE
latches. -/
def Obligations.ResolveLenAnswersWhatEncodeLatches : Prop :=
  ∀ (b : Byte) (ops : Ports) (s t u : State), exec (readResolve b ops) s = .next t →
    exec (readEncode b ops) s = .next u → t.status.cst = .ok → u.ctx.valid = true ∧ u.ctx.explen = t.lenout

/-! ### ENCODE -/

/-- 41_frame_encoder.md rules R122 to R125: the three counted read requests. -/
def Obligations.EncodeBuildsReadRequests : Prop :=
  (∀ ports : Ports,
    decode ⟨0x0601, ports⟩ = .ok (.encodeRC ports.unit ports.addr ports.count) ∧
    decode ⟨0x0602, ports⟩ = .ok (.encodeRDI ports.unit ports.addr ports.count) ∧
    decode ⟨0x0604, ports⟩ = .ok (.encodeRIR ports.unit ports.addr ports.count)) ∧
  ∀ (u : Byte) (a c : Word) (s : State),
    (∃ p x d, x.valid = false ∧ exec (.encodeRC u a c) s =
      .next (if 1 ≤ c.toNat ∧ 5 + (c.toNat + 7) / 8 ≤ s.config.maxAdu then
          built s 0x01 u c (5 + (c.toNat + 7) / 8) ([u, 0x01] ++ wire a ++ wire c) p
        else refused s x p d)) ∧
    (∃ p x d, x.valid = false ∧ exec (.encodeRDI u a c) s =
      .next (if 1 ≤ c.toNat ∧ 5 + (c.toNat + 7) / 8 ≤ s.config.maxAdu then
          built s 0x02 u c (5 + (c.toNat + 7) / 8) ([u, 0x02] ++ wire a ++ wire c) p
        else refused s x p d)) ∧
    (∃ p x d, x.valid = false ∧ exec (.encodeRIR u a c) s =
      .next (if 1 ≤ c.toNat ∧ 5 + 2 * c.toNat ≤ s.config.maxAdu then
          built s 0x04 u c (5 + 2 * c.toNat) ([u, 0x04] ++ wire a ++ wire c) p
        else refused s x p d))

/-- 41_frame_encoder.md rules R126, R127, R128, R131: the fixed requests, which no legal MAX_ADU refuses. -/
def Obligations.EncodeBuildsFixedRequests : Prop :=
  (∀ ports : Ports,
    decode ⟨0x0603, ports⟩ = .ok (.encodeRHR ports.unit ports.addr) ∧
    decode ⟨0x0605, ports⟩ = .ok (.encodeWSC ports.unit ports.addr ports.state) ∧
    decode ⟨0x0606, ports⟩ = .ok (.encodeWSR ports.unit ports.addr ports.value) ∧
    decode ⟨0x0607, ports⟩ = .ok (.encodeRES ports.unit)) ∧
  ∀ (u : Byte) (a : Word) (s : State),
    (∃ p, exec (.encodeRHR u a) s = .next (built s 0x03 u 1 7 ([u, 0x03] ++ wire a ++ [0x00, 0x01]) p)) ∧
    (∀ on : Bool, ∃ p, exec (.encodeWSC u a on) s =
      .next (built s 0x05 u 1 8 ([u, 0x05] ++ wire a ++ [if on then 0xFF else 0x00, 0x00]) p)) ∧
    (∀ v : Word, ∃ p, exec (.encodeWSR u a v) s =
      .next (built s 0x06 u 1 8 ([u, 0x06] ++ wire a ++ wire v) p)) ∧
    (∃ p, exec (.encodeRES u) s = .next (built s 0x07 u 0 5 [u, 0x07] p))

/-- 41_frame_encoder.md rule R132. -/
def Obligations.EncodeBuildsDiagnosticsEcho : Prop :=
  (∀ ports : Ports,
    decode ⟨0x0608, ports⟩ = .ok (.encodeDIAG ports.unit ports.bytes)) ∧
  ∀ (u : Byte) (bytes : List Byte) (s : State),
    ∃ p x d, x.valid = false ∧ exec (.encodeDIAG u bytes) s =
      .next (if 6 + bytes.length ≤ s.config.maxAdu then
          built s 0x08 u (BitVec.ofNat 16 bytes.length) (6 + bytes.length) ([u, 0x08, 0x00, 0x00] ++ bytes) p
        else refused s x p d)

/-- 41_frame_encoder.md rule R129 with 30_encoding.md rule R70: coil i is bit `i mod 8` of packed byte `i div 8`, padding
zero. -/
def Obligations.EncodeBuildsMultipleCoils : Prop :=
  (∀ ports : Ports, ports.wf = true →
    decode ⟨0x060F, ports⟩ = .ok (.encodeWMC ports.unit ports.addr ports.bits)) ∧
  ∀ (u : Byte) (a : Word) (bits : List Bool) (s : State),
    ∃ packed : List Byte, packed.length = (bits.length + 7) / 8 ∧
      (∀ i, i < 8 * packed.length → (packed.getD (i / 8) 0).getLsbD (i % 8) = bits.getD i false) ∧
      ∃ p x d, x.valid = false ∧ exec (.encodeWMC u a bits) s =
        .next (if 1 ≤ bits.length ∧ (bits.length + 7) / 8 ≤ 255 ∧ 9 + (bits.length + 7) / 8 ≤ s.config.maxAdu then
            built s 0x0F u (BitVec.ofNat 16 bits.length) 8
              ([u, 0x0F] ++ wire a ++ wire (BitVec.ofNat 16 bits.length) ++
                [BitVec.ofNat 8 ((bits.length + 7) / 8)] ++ packed) p
          else refused s x p d)

/-- 41_frame_encoder.md rule R130. -/
def Obligations.EncodeBuildsMultipleRegisters : Prop :=
  (∀ ports : Ports, ports.wf = true →
    decode ⟨0x0610, ports⟩ = .ok (.encodeWMR ports.unit ports.addr ports.words)) ∧
  ∀ (u : Byte) (a : Word) (words : List Word) (s : State),
    ∃ p x d, x.valid = false ∧ exec (.encodeWMR u a words) s =
      .next (if 1 ≤ words.length ∧ 2 * words.length ≤ 255 ∧ 9 + 2 * words.length ≤ s.config.maxAdu then
          built s 0x10 u (BitVec.ofNat 16 words.length) 8
            ([u, 0x10] ++ wire a ++ wire (BitVec.ofNat 16 words.length) ++
              [BitVec.ofNat 8 (2 * words.length)] ++ words.flatMap wire) p
        else refused s x p d)

/-- 41_frame_encoder.md rule R133: a byte outside the set is an invalid request, and exactly those bytes read so. -/
def Obligations.EncodeRefusesForeignFunctionCodes : Prop :=
  ∀ (fc : Byte) (ports : Ports),
    (fc.toNat ∉ [1, 2, 3, 4, 5, 6, 7, 8, 15, 16] ↔ decode ⟨word 0x06 fc, ports⟩ = .ok (.encodeInvalid fc)) ∧
    ∀ s : State, ∃ p x d, x.valid = false ∧ exec (.encodeInvalid fc) s = .next (refused s x p d)

/-- 41_frame_encoder.md rule R120, last sentence: the largest accepted counts with MAX_ADU = 256. -/
def Obligations.LargestAcceptedCounts : Prop :=
  ∀ (u : Byte) (a : Word) (s : State), s.config.maxAdu = 256 →
    (∀ c : Word, accepts (.encodeRC u a c) s ↔ 1 ≤ c.toNat ∧ c.toNat ≤ 2008) ∧
    (∀ c : Word, accepts (.encodeRDI u a c) s ↔ 1 ≤ c.toNat ∧ c.toNat ≤ 2008) ∧
    (∀ c : Word, accepts (.encodeRIR u a c) s ↔ 1 ≤ c.toNat ∧ c.toNat ≤ 125) ∧
    (∀ b : List Bool, accepts (.encodeWMC u a b) s ↔ 1 ≤ b.length ∧ b.length ≤ 1976) ∧
    (∀ w : List Word, accepts (.encodeWMR u a w) s ↔ 1 ≤ w.length ∧ w.length ≤ 123) ∧
    (∀ b : List Byte, accepts (.encodeDIAG u b) s ↔ b.length ≤ 250)

/-! ### DECODE -/

/-- 43_response_decoder.md rules R170 to R173: the checks in their order, then the bits. -/
def Obligations.DecodeExtractsBits : Prop :=
  (∀ ports : Ports,
    decode ⟨0x0701, ports⟩ = .ok (.decodeRC ports.rx) ∧
    decode ⟨0x0702, ports⟩ = .ok (.decodeRDI ports.rx)) ∧
  ∀ (rx : List Byte) (s : State),
    (Requires s 0x01 (5 + (s.ctx.count.toNat + 7) / 8) → ∃ p, exec (.decodeRC rx) s =
      .next (checked s 0x01 rx p (decoded s (.bits (bitsOf rx s.ctx.count.toNat)) p))) ∧
    (Requires s 0x02 (5 + (s.ctx.count.toNat + 7) / 8) → ∃ p, exec (.decodeRDI rx) s =
      .next (checked s 0x02 rx p (decoded s (.bits (bitsOf rx s.ctx.count.toNat)) p)))

/-- 43_response_decoder.md rules R170, R171, R174, R175: registers, big-endian from offset 3. -/
def Obligations.DecodeExtractsRegisters : Prop :=
  (∀ ports : Ports,
    decode ⟨0x0704, ports⟩ = .ok (.decodeRIR ports.rx) ∧
    decode ⟨0x0703, ports⟩ = .ok (.decodeRHR ports.rx)) ∧
  ∀ (rx : List Byte) (s : State),
    (Requires s 0x04 (5 + 2 * s.ctx.count.toNat) → ∃ p, exec (.decodeRIR rx) s =
      .next (checked s 0x04 rx p
        (decoded s (.regs ((List.range s.ctx.count.toNat).map (fun i => fieldAt rx (3 + 2 * i)))) p))) ∧
    (Requires s 0x03 7 → ∃ p, exec (.decodeRHR rx) s =
      .next (checked s 0x03 rx p (decoded s (.reg (fieldAt rx 3)) p)))

/-- 43_response_decoder.md rules R170, R171, R176 to R179: bytes 2 to 5 of the response against those of TXBUF. -/
def Obligations.DecodeConfirmsWrites : Prop :=
  (∀ ports : Ports,
    decode ⟨0x0705, ports⟩ = .ok (.decodeWSC ports.rx) ∧
    decode ⟨0x0706, ports⟩ = .ok (.decodeWSR ports.rx) ∧
    decode ⟨0x070F, ports⟩ = .ok (.decodeWMC ports.rx) ∧
    decode ⟨0x0710, ports⟩ = .ok (.decodeWMR ports.rx)) ∧
  ∀ (rx : List Byte) (s : State),
    (RequiresEcho s 0x05 → ∃ p, exec (.decodeWSC rx) s = .next (checked s 0x05 rx p (confirmed s rx p))) ∧
    (RequiresEcho s 0x06 → ∃ p, exec (.decodeWSR rx) s = .next (checked s 0x06 rx p (confirmed s rx p))) ∧
    (RequiresEcho s 0x0F → ∃ p, exec (.decodeWMC rx) s = .next (checked s 0x0F rx p (confirmed s rx p))) ∧
    (RequiresEcho s 0x10 → ∃ p, exec (.decodeWMR rx) s = .next (checked s 0x10 rx p (confirmed s rx p)))

/-- 43_response_decoder.md rules R170, R171, R180, R181. -/
def Obligations.DecodeExtractsStatusAndEcho : Prop :=
  (∀ ports : Ports,
    decode ⟨0x0707, ports⟩ = .ok (.decodeRES ports.rx) ∧
    decode ⟨0x0708, ports⟩ = .ok (.decodeDIAG ports.rx)) ∧
  ∀ (rx : List Byte) (s : State),
    (Requires s 0x07 5 → ∃ p, exec (.decodeRES rx) s =
      .next (checked s 0x07 rx p (decoded s (.excStatus (rx.getD 2 0)) p))) ∧
    (Requires s 0x08 (6 + s.ctx.count.toNat) → ∃ p, exec (.decodeDIAG rx) s =
      .next (checked s 0x08 rx p (decoded s (.echo ((rx.drop 4).take s.ctx.count.toNat)) p)))

/-- 43_response_decoder.md rule R170 and 30_encoding.md rule R74: a byte outside the set is a sequence error. -/
def Obligations.DecodeRefusesForeignFunctionCodes : Prop :=
  ∀ (fc : Byte) (ports : Ports),
    (fc.toNat ∉ [1, 2, 3, 4, 5, 6, 7, 8, 15, 16] ↔ decode ⟨word 0x07 fc, ports⟩ = .ok (.decodeInvalid fc)) ∧
    ∀ s : State, ∃ p, exec (.decodeInvalid fc) s = .next { withCst s .sequenceError with privAcc := p }

/-- 43_response_decoder.md rule R183, for two DECODE commands in a row: the second changes nothing at all. -/
def Obligations.DecodeTwiceIsDecodeOnce : Prop :=
  ∀ (i : Instr) (s t : State), isDecode i = true → exec i s = .next t → exec i t = .next t

/-- 43_response_decoder.md rule R183, with any commands but ENCODE and RESET in between: RESULT, PHASE, ERR and CST are the
same (VFY may differ: a CRC_VERIFY in between writes it), provided the first DECODE was no sequence error. -/
def Obligations.DecodeIsRepeatable : Prop :=
  ∀ (i : Instr) (between : List Instr) (s t u v : State), isDecode i = true → exec i s = .next t →
    t.status.cst ≠ .sequenceError → (∀ j ∈ between, isEncode j = false ∧ isReset j = false) →
    execAll between t = some u → exec i u = .next v →
    v.result = t.result ∧ v.status.phase = t.status.phase ∧ v.status.err = t.status.err ∧ v.status.cst = t.status.cst

/-- 43_response_decoder.md rule R184 and 60_exceptions.md rule R224: a DECODE that ends with a transaction error leaves no
result, and one that succeeds leaves one. -/
def Obligations.NoPartialResult : Prop :=
  ∀ (i : Instr) (s t : State), isDecode i = true → exec i s = .next t →
    (t.status.cst = .ok → t.result ≠ .none ∧ t.status.phase = .decoded ∧ t.status.err = .ok) ∧
    (t.status.cst ≠ .ok → t.status.cst ≠ .sequenceError →
      t.result = .none ∧ t.status.phase = .failed ∧ t.status.err = t.status.cst) ∧
    (t.status.cst = .sequenceError →
      t.result = s.result ∧ t.status.phase = s.status.phase ∧ t.status.err = s.status.err)

/-! ### End to end -/

/-- 42_length_resolver.md rule R153 with rules R45, R71, R123, R172: whatever bits a slave packs LSB-first into a response of
the resolved length, DECODE after ENCODE returns exactly them; the header bytes and the padding do not matter (rule R182). -/
def Obligations.ReadCoilsReturnsTheSlavesBits : Prop :=
  ∀ (u h0 h1 h2 : Byte) (a c : Word) (bits : List Bool) (data : List Byte) (s t : State),
    bits.length = c.toNat → 1 ≤ c.toNat → 5 + (c.toNat + 7) / 8 ≤ s.config.maxAdu →
    data.length = (c.toNat + 7) / 8 →
    (∀ i, i < c.toNat → (data.getD (i / 8) 0).getLsbD (i % 8) = bits.getD i false) →
    (exec (.encodeRC u a c) s = .next t →
      ∃ v, exec (.decodeRC (withCrc ([h0, h1, h2] ++ data))) t = .next v ∧
        v.result = .bits bits ∧ v.status.phase = .decoded ∧ v.status.err = .ok ∧ v.status.cst = .ok) ∧
    (exec (.encodeRDI u a c) s = .next t →
      ∃ v, exec (.decodeRDI (withCrc ([h0, h1, h2] ++ data))) t = .next v ∧
        v.result = .bits bits ∧ v.status.phase = .decoded ∧ v.status.err = .ok ∧ v.status.cst = .ok)

/-- 42_length_resolver.md rule R153 with rules R43, R72, R125, R174: registers sent high byte first come back as they are. -/
def Obligations.ReadInputRegistersReturnsTheSlavesWords : Prop :=
  ∀ (u h0 h1 h2 : Byte) (a c : Word) (words : List Word) (s t : State),
    words.length = c.toNat → 1 ≤ c.toNat → 5 + 2 * c.toNat ≤ s.config.maxAdu →
    exec (.encodeRIR u a c) s = .next t →
    ∃ v, exec (.decodeRIR (withCrc ([h0, h1, h2] ++ words.flatMap wire))) t = .next v ∧
      v.result = .regs words ∧ v.status.phase = .decoded ∧ v.status.err = .ok ∧ v.status.cst = .ok

/-- 42_length_resolver.md rule R153 for the write functions: the response that echoes request bytes 2 to 5 confirms, every
other echo is a mismatch (43_response_decoder.md rules R176 to R179). -/
def Obligations.WriteResponsesAreJudgedByTheirEcho : Prop :=
  ∀ (fc : Fc) (ops : Ports) (h0 h1 : Byte) (echo : List Byte) (s t : State),
    fc = .wsc ∨ fc = .wsr ∨ fc = .wmc ∨ fc = .wmr → echo.length = 4 →
    exec (encodeOf fc ops) s = .next t → t.status.phase = .built →
    ∃ v, exec (decodeOf fc (withCrc ([h0, h1] ++ echo))) t = .next v ∧
      (echo = (t.txbuf.drop 2).take 4 → v.result = .writeOk ∧ v.status.phase = .decoded) ∧
      (echo ≠ (t.txbuf.drop 2).take 4 → v.result = .none ∧ v.status.phase = .failed ∧
        v.status.err = .echoMismatch ∧ v.status.cst = .echoMismatch)

/-! ### ABORT, RESET and the illegal commands -/

/-- 44_control.md rule R200. -/
def Obligations.AbortRecordsTheHostsFailure : Prop :=
  ∀ s : State,
    exec .abortTransportError s =
      .next (if s.ctx.valid = true then aborted s .transportError else withCst s .sequenceError) ∧
    exec .abortTimeout s =
      .next (if s.ctx.valid = true then aborted s .timeout else withCst s .sequenceError) ∧
    exec .abortInvalidResponseLength s =
      .next (if s.ctx.valid = true then aborted s .invalidResponseLength else withCst s .sequenceError) ∧
    (∀ code : Byte, exec (.abortIllegal code) s = .next (withCst s .illegalCommand)) ∧
    ∀ (e : Byte) (ports : Ports),
      decode ⟨word 0x08 e, ports⟩ =
        .ok (if e = 1 then .abortTransportError else if e = 2 then .abortTimeout
          else if e = 3 then .abortInvalidResponseLength else .abortIllegal e)

/-- 44_control.md rule R201 and 10_state.md rule R36: RESET and power-on give the same values; MAX_ADU survives
(70_reset_and_hazards.md rule R260). That the commands still to be presented and the model's counter stay too is no rule of the
spec but the model's (log entry 12, DEDUCED). -/
def Obligations.ResetGivesTheResetState : Prop :=
  (State.reset.acc = 0xFFFF ∧ State.reset.status.toWord = 0x0000 ∧ State.reset.lenout = 0 ∧
    State.reset.ctx = { valid := false, fc := 0, unit := 0, count := 0, explen := 0 } ∧
    State.reset.txbuf = [] ∧ State.reset.result = .none) ∧
  ∀ (arg : Byte) (ports : Ports) (s : State),
    decode ⟨word 0x09 arg, ports⟩ = .ok (.reset arg) ∧
    ∃ p, exec (.reset arg) s =
      .next { State.reset with privAcc := p, config := s.config, commands := s.commands, draws := s.draws }

/-- 44_control.md rule R202, by the command itself: every illegal one records its code and nothing else. -/
def Obligations.IllegalCommandsOnlyRecordTheirCode : Prop :=
  ∀ s : State,
    (∀ x : Byte, exec (.illegalOpc00 x) s = .next (withCst s .illegalCommand)) ∧
    (∀ x : BitVec 9, exec (.illegalOpc0A0B x) s = .next (withCst s .illegalCommand)) ∧
    (∀ x : BitVec 10, exec (.illegalOpc0C0F x) s = .next (withCst s .illegalCommand)) ∧
    (∀ x : BitVec 12, exec (.illegalOpc101F x) s = .next (withCst s .illegalCommand)) ∧
    (∀ x : BitVec 13, exec (.illegalOpc203F x) s = .next (withCst s .illegalCommand)) ∧
    (∀ x : BitVec 14, exec (.illegalOpc407F x) s = .next (withCst s .illegalCommand)) ∧
    (∀ x : BitVec 15, exec (.illegalOpc80FF x) s = .next (withCst s .illegalCommand)) ∧
    (∀ x : Byte, exec (.abortIllegal x) s = .next (withCst s .illegalCommand))

/-- 44_control.md rule R202, by the command word: every unassigned word, whatever its ports, is an illegal command, the
machine goes on, and nothing else changes. -/
def Obligations.UnassignedWordsAreIllegalCommands : Prop :=
  ∀ (cw : Word) (ports : Ports) (rest : List Command) (s : State), s.commands = ⟨cw, ports⟩ :: rest →
    (cw.toNat / 256 = 0x00 ∨ 0x0A ≤ cw.toNat / 256 ∨ (cw.toNat / 256 = 0x08 ∧ cw.toNat % 256 ∉ [1, 2, 3])) →
    step s = .next (withCst { s with commands := rest } .illegalCommand)

/-! ### STATUS and the writers of each register -/

/-- 10_state.md rule R24 with 60_exceptions.md rule R221: the places and the values of the fields; bits 3 and 15:12 are zero. -/
def Obligations.StatusWordHasTheSpecifiedLayout : Prop :=
  ∀ t : Status,
    t.toWord.toNat =
      (match t.phase with | .idle => 0 | .built => 1 | .decoded => 2 | .failed => 3) +
      4 * (if t.vfy then 1 else 0) + 16 * t.err.bits.toNat + 256 * t.cst.bits.toNat ∧
    ErrCode.ok.bits = 0 ∧ ErrCode.transportError.bits = 1 ∧ ErrCode.timeout.bits = 2 ∧
    ErrCode.invalidResponseLength.bits = 3 ∧ ErrCode.checksumMismatch.bits = 4 ∧ ErrCode.echoMismatch.bits = 5 ∧
    ErrCode.invalidRequest.bits = 6 ∧ ErrCode.sequenceError.bits = 7 ∧ ErrCode.illegalCommand.bits = 8

/-- 10_state.md rule R25: every transition of PHASE, over all commands. -/
def Obligations.PhaseFollowsTheTransitionTable : Prop :=
  ∀ (i : Instr) (s t : State), exec i s = .next t →
    (isEncode i = true → (t.status.cst = .ok ∧ t.status.phase = .built) ∨
      (t.status.cst = .invalidRequest ∧ t.status.phase = .failed)) ∧
    (isDecode i = true → (s.ctx.valid = true ∧ t.status.cst = .ok ∧ t.status.phase = .decoded) ∨
      (s.ctx.valid = true ∧ t.status.cst ∈ [.invalidResponseLength, .checksumMismatch, .echoMismatch] ∧
        t.status.phase = .failed) ∨
      (t.status.cst = .sequenceError ∧ t.status.phase = s.status.phase)) ∧
    (isAbort i = true → (s.ctx.valid = true ∧ t.status.phase = .failed) ∨
      (s.ctx.valid = false ∧ t.status.phase = s.status.phase)) ∧
    (isReset i = true → t.status.phase = .idle) ∧
    (isEncode i = false → isDecode i = false → isAbort i = false → isReset i = false →
      t.status.phase = s.status.phase)

/-- 60_exceptions.md rule R222 and 10_state.md rule R28: the codes each command can end with. -/
def Obligations.EveryCommandEndsWithAPossibleCode : Prop :=
  ∀ (i : Instr) (s t : State), exec i s = .next t →
    (isResolve i = true ∨ isEncode i = true → t.status.cst = .ok ∨ t.status.cst = .invalidRequest) ∧
    (isDecode i = true →
      t.status.cst ∈ [.ok, .invalidResponseLength, .checksumMismatch, .sequenceError] ∨
      (t.status.cst = .echoMismatch ∧ ∃ rx, i = .decodeWSC rx ∨ i = .decodeWSR rx ∨ i = .decodeWMC rx ∨ i = .decodeWMR rx)) ∧
    (isAbort i = true → t.status.cst = .ok ∨ t.status.cst = .sequenceError) ∧
    (isIllegal i = true → t.status.cst = .illegalCommand) ∧
    (isResolve i = false → isEncode i = false → isDecode i = false → isAbort i = false → isIllegal i = false →
      t.status.cst = .ok)

/-- 10_state.md rules R23, R26, R29, R30, R31, R32, R35, R37: which command may write which register, over all commands.
That every command but ENCODE, DECODE and CRC_VERIFY, RESET among them, keeps the private accumulator is no rule of the spec
but the model's choice (log entry 4, DESIGN CHOICE, and entry 12, DEDUCED), and so is that the commands still to be presented
stay (log entries 1 and 12). -/
def Obligations.OnlyItsWritersChangeARegister : Prop :=
  ∀ (i : Instr) (s t : State), exec i s = .next t →
    (writesAcc i = false → t.acc = s.acc) ∧
    (isVerify i = false → isReset i = false → t.status.vfy = s.status.vfy) ∧
    (isResolve i = false → isReset i = false → t.lenout = s.lenout) ∧
    (isEncode i = false → isReset i = false → t.ctx = s.ctx ∧ t.txbuf = s.txbuf) ∧
    (isEncode i = false → isDecode i = false → isAbort i = false → isReset i = false →
      t.result = s.result ∧ t.status.phase = s.status.phase ∧ t.status.err = s.status.err) ∧
    (isEncode i = false → isDecode i = false → isVerify i = false → t.privAcc = s.privAcc) ∧
    t.config = s.config ∧ t.commands = s.commands

/-- 60_exceptions.md rule R224: an error of the transaction is precise. The state after it is the state before with exactly the
writes of the rule: ENCODE also empties TXBUF and clears CTX.valid, ABORT completes with CST 0. -/
def Obligations.TransactionErrorsArePrecise : Prop :=
  ∀ (i : Instr) (s t : State), exec i s = .next t →
    (isEncode i = true → t.status.cst ≠ .ok → ∃ p x d, x.valid = false ∧ t = refused s x p d) ∧
    (isDecode i = true → t.status.cst ≠ .ok → t.status.cst ≠ .sequenceError → ∃ p, t = failed s t.status.cst p) ∧
    (isAbort i = true → t.status.cst = .ok → t.status.err ∈ [.transportError, .timeout, .invalidResponseLength] ∧
      t = aborted s t.status.err)

/-- 60_exceptions.md rule R226: a command-level error writes CST, and LENOUT for RESOLVE_LEN, and nothing else, so a misused
command never disturbs the transaction in progress. -/
def Obligations.CommandErrorsDisturbNoTransaction : Prop :=
  ∀ (i : Instr) (s t : State), exec i s = .next t →
    (t.status.cst = .sequenceError ∨ t.status.cst = .illegalCommand ∨
      (t.status.cst = .invalidRequest ∧ isResolve i = true)) →
    ∃ p, t = { withCst s t.status.cst with
      privAcc := p, lenout := if isResolve i = true then 0x0000 else s.lenout }

/-- 10_state.md rule R33: no outcome depends on the private accumulator's value before a command. -/
def Obligations.PrivateAccumulatorIsNeverRead : Prop :=
  ∀ (i : Instr) (s : State) (v : Word),
    seen (fun t => { t with privAcc := 0 }) (exec i { s with privAcc := v }) =
      seen (fun t => { t with privAcc := 0 }) (exec i s)

/-- 10_state.md rules R23 and R26, 70_reset_and_hazards.md rule R266: no command reads VFY, and only CRC_UPDATE reads ACC. Another
value there beforehand is overwritten by the commands that write the register, is still there after every other command, and
changes nothing else. -/
def Obligations.VfyAndAccAreNotReadByOthers : Prop :=
  ∀ (i : Instr) (s : State),
    (∀ b : Bool, exec i { s with status := { s.status with vfy := b } } =
      if isVerify i = true ∨ isReset i = true then exec i s
      else seen (fun t => { t with status := { t.status with vfy := b } }) (exec i s)) ∧
    (isUpdate i = false → ∀ a : Word, exec i { s with acc := a } =
      if writesAcc i = true then exec i s else seen (fun t => { t with acc := a }) (exec i s))

/-! ### Encoding and the step -/

/-- Decode and encode agree: every well-formed command of every family, with every operand at every value
(30_encoding.md rules R60 to R65). -/
def Obligations.DecodeInvertsEncode : Prop :=
  ∀ i : Instr, i.wf = true → decode (encode i) = .ok i

/-- The other direction: what the decoder accepts is well formed, and no bit of the command word is lost. That also the bits
which a command ignores are kept is the model's choice (log entry 7, DESIGN CHOICE): by 30_encoding.md rule R62 any ARG8 there
selects the same command. -/
def Obligations.DecodingLosesNoBitOfTheWord : Prop :=
  ∀ (c : Command) (i : Instr), decode c = .ok i → i.wf = true ∧ (encode i).cw = c.cw

/-- 30_encoding.md rule R63: a port matters only to the commands the table names for it. -/
def Obligations.PortsAreReadOnlyWhereNamed : Prop :=
  ∀ (cw : Word) (p : Ports),
    (∀ v, cw.toNat / 256 ≠ 6 → decode ⟨cw, { p with unit := v }⟩ = decode ⟨cw, p⟩) ∧
    (∀ v, cw.toNat ∉ [0x0601, 0x0602, 0x0603, 0x0604, 0x0605, 0x0606, 0x060F, 0x0610] →
      decode ⟨cw, { p with addr := v }⟩ = decode ⟨cw, p⟩) ∧
    (∀ v, cw.toNat ∉ [0x0501, 0x0502, 0x0504, 0x0601, 0x0602, 0x0604] →
      decode ⟨cw, { p with count := v }⟩ = decode ⟨cw, p⟩) ∧
    (∀ v, cw.toNat ≠ 0x0605 → decode ⟨cw, { p with state := v }⟩ = decode ⟨cw, p⟩) ∧
    (∀ v, cw.toNat ≠ 0x0606 → decode ⟨cw, { p with value := v }⟩ = decode ⟨cw, p⟩) ∧
    (∀ v, cw.toNat ∉ [0x050F, 0x060F] → decode ⟨cw, { p with bits := v }⟩ = decode ⟨cw, p⟩) ∧
    (∀ v, cw.toNat ∉ [0x0510, 0x0610] → decode ⟨cw, { p with words := v }⟩ = decode ⟨cw, p⟩) ∧
    (∀ v, cw.toNat / 256 ≠ 3 → cw.toNat / 256 ≠ 4 → cw.toNat ∉ [0x0508, 0x0608] →
      decode ⟨cw, { p with bytes := v }⟩ = decode ⟨cw, p⟩) ∧
    (∀ v, cw.toNat / 256 ≠ 4 → decode ⟨cw, { p with rxcrc := v }⟩ = decode ⟨cw, p⟩) ∧
    (∀ v, cw.toNat / 256 ≠ 7 → decode ⟨cw, { p with rx := v }⟩ = decode ⟨cw, p⟩)

/-- 30_encoding.md, opening paragraph: for each of the 65536 command words exactly one row of the opcode table wins, and it is
the row of the command the decoder reads. -/
def Obligations.OpcodeTableSelectsTheDecodedRow : Prop :=
  ∀ c : Command, winningRows c.cw = [rowOf (readCommand c)]

/-- 30_encoding.md rules R61 and R62, on words written out from the tables, one or more of each family. -/
def Obligations.WordsOfTheSpecDecode : Prop :=
  decode ⟨0x0237, Ports.idle⟩ = .ok (.crcUpdate 0x37) ∧
  decode ⟨0x01AB, Ports.idle⟩ = .ok (.crcInit 0xAB) ∧
  decode ⟨0x0510, Ports.idle⟩ = .ok (.resolveWMR []) ∧
  decode ⟨0x0601, Ports.idle⟩ = .ok (.encodeRC 0 0 0) ∧
  decode ⟨0x0609, Ports.idle⟩ = .ok (.encodeInvalid 0x09) ∧
  decode ⟨0x0707, Ports.idle⟩ = .ok (.decodeRES []) ∧
  decode ⟨0x0802, Ports.idle⟩ = .ok .abortTimeout ∧
  decode ⟨0x09FF, Ports.idle⟩ = .ok (.reset 0xFF) ∧
  decode ⟨0x0A00, Ports.idle⟩ = .ok (.illegalOpc0A0B 0) ∧
  decode ⟨0xFFFF, Ports.idle⟩ = .ok (.illegalOpc80FF 0x7FFF)

/-- A step runs the decoded command (10_state.md rules R20, R22): the presented command is consumed, decoded and executed;
with nothing presented the state is held (60_exceptions.md rule R240); a port value outside its type is no command. The
command stream is the model's (log entries 1 and 6). -/
def Obligations.StepRunsTheDecodedCommand : Prop :=
  ∀ s : State,
    (s.commands = [] → step s = .next s) ∧
    (∀ c rest i, s.commands = c :: rest → decode c = .ok i → step s = exec i { s with commands := rest }) ∧
    (∀ c rest e, s.commands = c :: rest → decode c = .error e → step s = .refused (.malformedCommand e)) ∧
    (∀ nbits w i, decodeTableWord nbits w = some i → step (s.withFetchWord nbits w) = exec i s)

/-- 30_encoding.md rule R63: with every port within its type, every command word decodes. -/
def Obligations.EveryCommandWordDecodes : Prop :=
  ∀ c : Command, c.ports.wf = true → ∃ i, decode c = .ok i

/-! ### Whole-machine rules -/

/-- The invariant holds after reset. -/
def Obligations.InvariantHoldsAtReset : Prop := State.reset.Inv

/-- Every step keeps the invariant: the bound on TXBUF, CTX describing the CRC-valid request in TXBUF, ERR nonzero exactly in
FAILED, RESULT NONE outside DECODED and otherwise a value of the latched request (10_state.md rules R24, R25, R27, R30 to
R32). -/
def Obligations.StepKeepsTheInvariant : Prop :=
  ∀ s t : State, s.Inv → step s = .next t → t.Inv

/-- 60_exceptions.md rule R220 and 70_reset_and_hazards.md rule R270: no error stops the block. However many commands the host
presents, each answers a next state. -/
def Obligations.TheBlockNeverStops : Prop :=
  ∀ (k : Nat) (s : State), s.Inv → s.portsWf = true → ∃ t, Host.Core.run Sys2Proof.core k s = .next t ∧ t.Inv

/-- 30_encoding.md rule R79 and 60_exceptions.md rules R230 to R233: a transaction always ends DECODED or FAILED, with the code
of what went wrong. -/
def Obligations.TransactionEndsDecodedOrFailed : Prop :=
  ∀ (fc : Fc) (ops : Ports) (w : WriteOutcome) (r : ReadOutcome) (s : State), s.Inv →
    ∃ t, xact fc ops w r s = some t ∧ t.Inv ∧
      (requestValid s.config fc ops = false → t.status.phase = .failed ∧ t.status.err = .invalidRequest) ∧
      (requestValid s.config fc ops = true → w = .transportError →
        t.status.phase = .failed ∧ t.status.err = .transportError) ∧
      (requestValid s.config fc ops = true → w = .done →
        (r = .timeout → t.status.phase = .failed ∧ t.status.err = .timeout) ∧
        (r = .transportError → t.status.phase = .failed ∧ t.status.err = .transportError) ∧
        (r = .short → t.status.phase = .failed ∧ t.status.err = .invalidResponseLength) ∧
        (∀ rx, r = .bytes rx →
          (t.status.phase = .decoded ∧ t.result ≠ .none) ∨
          (t.status.phase = .failed ∧ t.result = .none ∧
            t.status.err ∈ [.invalidResponseLength, .checksumMismatch, .echoMismatch])))

/-- 60_exceptions.md rules R225, R230 and R237: through every event of the host protocol, retries and retransmissions among them,
the block keeps its invariant and a request of the host's function, and shows the PHASE of the host's phase (BUILT while the
request is on its way, FAILED while it is a retransmission out of FAILED). That a retransmission takes the host back to Sending
is the model's reading (log entry 17, DEDUCED). -/
def Obligations.HostPhasesMatchTheBlock : Prop :=
  ∀ (x y : Transaction) (e : HostEvent), x.Agrees → x.advance e = some y → y.Agrees

/-- 60_exceptions.md rules R225 and R237 with 44_control.md rule R200 (corner cases): out of FAILED with a built request, and after
any transport failure, the host may send the request again. The block does not change, the host sends the same TXBUF and reads the
same number of bytes, and what it reads is decoded against the same request.
That a retransmission takes the host back to Sending is the model's reading (log entry 17, DEDUCED). -/
def Obligations.RetransmissionRepeatsTheRequest : Prop :=
  ∀ x : Transaction, x.Agrees →
    (x.phase = .failed → x.block.ctx.valid = true → ∃ y, x.advance .retransmit = some y ∧
      y.phase = .sending ∧ y.block = x.block) ∧
    (∀ f : TransportFailure, x.phase = f.happensIn → ∃ y, x.advance (.retry f .retransmission) = some y ∧
      y.phase = .sending ∧ y.block = x.block) ∧
    (x.phase = .sending → hostAction x.block x.phase = some (.write x.block.txbuf) ∧
      ∀ rx : List Byte, ∃ a b c v t,
        x.advance (.written .done) = some a ∧ a.advance .settled = some b ∧
        hostAction b.block b.phase = some (.readExact x.block.ctx.explen.toNat Config.readTimeout) ∧
        b.advance (.read (.bytes rx)) = some c ∧ c.advance .validate = some v ∧
        exec (decodeOf x.fc rx) x.block = .next t ∧ v.block = t ∧
        (v.phase = .decoded ∧ t.status.phase = .decoded ∨ v.phase = .failed ∧ t.status.phase = .failed))

/-- 60_exceptions.md rule R237: the other way to retry, a new ENCODE, is open after every transport failure, and starts a
transaction as a request does, which is open exactly with none outstanding (rule R235). -/
def Obligations.NewEncodeStartsTheTransactionAnew : Prop :=
  ∀ (x : Transaction) (fc : Fc) (ops : Ports),
    (∀ f : TransportFailure, x.phase = f.happensIn → ∃ y t, x.advance (.retry f (.newEncode fc ops)) = some y ∧
      exec (encodeOf fc ops) x.block = .next t ∧ y.block = t ∧ y.fc = fc ∧ y.resent = false ∧
      (y.phase = .sending ∧ t.status.phase = .built ∨ y.phase = .failed ∧ t.status.phase = .failed)) ∧
    (x.phase.outstanding = false → ∃ y t, x.advance (.request fc ops) = some y ∧
      exec (encodeOf fc ops) x.block = .next t ∧ y.block = t ∧ y.fc = fc ∧ y.resent = false ∧
      (y.phase = .sending ∧ t.status.phase = .built ∨ y.phase = .failed ∧ t.status.phase = .failed)) ∧
    (x.phase.outstanding = true → x.advance (.request fc ops) = none)

/-- 60_exceptions.md rules R230 to R233: XACT is the host protocol run on the transport's answers. -/
def Obligations.XactIsTheHostProtocol : Prop :=
  ∀ (x : Transaction) (fc : Fc) (ops : Ports), x.phase.outstanding = false →
    (∀ r : ReadOutcome, xact fc ops .transportError r x.block =
      ((x.advance (.request fc ops)).bind fun y =>
        if y.phase = .sending then y.advance (.written .transportError) else some y).map Transaction.block) ∧
    ∀ r : ReadOutcome, xact fc ops .done r x.block =
      ((x.advance (.request fc ops)).bind fun y =>
        if y.phase = .sending then
          (y.advance (.written .done)).bind fun y => (y.advance .settled).bind fun y =>
            (y.advance (.read r)).bind fun y =>
              if y.phase = .validating then y.advance .validate else some y
        else some y).map Transaction.block
end

