-- ==== Sys2Proof/Laws/State.lean ====
section
/-! SUPPORT. One lemma per field per update of `State` and `Status`, each true by unfolding the update once, so that no later
proof unfolds a record update. -/

namespace Sys2Proof.Machine

@[simp] theorem Status.withCst_phase (t : Status) (e : ErrCode) : (t.withCst e).phase = t.phase := rfl
@[simp] theorem Status.withCst_vfy (t : Status) (e : ErrCode) : (t.withCst e).vfy = t.vfy := rfl
@[simp] theorem Status.withCst_err (t : Status) (e : ErrCode) : (t.withCst e).err = t.err := rfl
@[simp] theorem Status.withCst_cst (t : Status) (e : ErrCode) : (t.withCst e).cst = e := rfl

@[simp] theorem Status.verified_phase (t : Status) (b : Bool) : (t.verified b).phase = t.phase := rfl
@[simp] theorem Status.verified_vfy (t : Status) (b : Bool) : (t.verified b).vfy = b := rfl
@[simp] theorem Status.verified_err (t : Status) (b : Bool) : (t.verified b).err = t.err := rfl
@[simp] theorem Status.verified_cst (t : Status) (b : Bool) : (t.verified b).cst = .ok := rfl

@[simp] theorem Status.built_phase (t : Status) : t.built.phase = .built := rfl
@[simp] theorem Status.built_vfy (t : Status) : t.built.vfy = t.vfy := rfl
@[simp] theorem Status.built_err (t : Status) : t.built.err = .ok := rfl
@[simp] theorem Status.built_cst (t : Status) : t.built.cst = .ok := rfl

@[simp] theorem Status.decoded_phase (t : Status) : t.decoded.phase = .decoded := rfl
@[simp] theorem Status.decoded_vfy (t : Status) : t.decoded.vfy = t.vfy := rfl
@[simp] theorem Status.decoded_err (t : Status) : t.decoded.err = .ok := rfl
@[simp] theorem Status.decoded_cst (t : Status) : t.decoded.cst = .ok := rfl

@[simp] theorem Status.failed_phase (t : Status) (e c : ErrCode) : (t.failed e c).phase = .failed := rfl
@[simp] theorem Status.failed_vfy (t : Status) (e c : ErrCode) : (t.failed e c).vfy = t.vfy := rfl
@[simp] theorem Status.failed_err (t : Status) (e c : ErrCode) : (t.failed e c).err = e := rfl
@[simp] theorem Status.failed_cst (t : Status) (e c : ErrCode) : (t.failed e c).cst = c := rfl

@[simp] theorem complete_acc (s : State) : (complete s).acc = s.acc := rfl
@[simp] theorem complete_status (s : State) : (complete s).status = s.status.withCst .ok := rfl
@[simp] theorem complete_lenout (s : State) : (complete s).lenout = s.lenout := rfl
@[simp] theorem complete_ctx (s : State) : (complete s).ctx = s.ctx := rfl
@[simp] theorem complete_txbuf (s : State) : (complete s).txbuf = s.txbuf := rfl
@[simp] theorem complete_result (s : State) : (complete s).result = s.result := rfl
@[simp] theorem complete_privAcc (s : State) : (complete s).privAcc = s.privAcc := rfl
@[simp] theorem complete_config (s : State) : (complete s).config = s.config := rfl
@[simp] theorem complete_commands (s : State) : (complete s).commands = s.commands := rfl
@[simp] theorem complete_draws (s : State) : (complete s).draws = s.draws := rfl

@[simp] theorem failCommand_acc (e : ErrCode) (s : State) : (failCommand e s).acc = s.acc := rfl
@[simp] theorem failCommand_status (e : ErrCode) (s : State) : (failCommand e s).status = s.status.withCst e := rfl
@[simp] theorem failCommand_lenout (e : ErrCode) (s : State) : (failCommand e s).lenout = s.lenout := rfl
@[simp] theorem failCommand_ctx (e : ErrCode) (s : State) : (failCommand e s).ctx = s.ctx := rfl
@[simp] theorem failCommand_txbuf (e : ErrCode) (s : State) : (failCommand e s).txbuf = s.txbuf := rfl
@[simp] theorem failCommand_result (e : ErrCode) (s : State) : (failCommand e s).result = s.result := rfl
@[simp] theorem failCommand_privAcc (e : ErrCode) (s : State) : (failCommand e s).privAcc = s.privAcc := rfl
@[simp] theorem failCommand_config (e : ErrCode) (s : State) : (failCommand e s).config = s.config := rfl
@[simp] theorem failCommand_commands (e : ErrCode) (s : State) : (failCommand e s).commands = s.commands := rfl
@[simp] theorem failCommand_draws (e : ErrCode) (s : State) : (failCommand e s).draws = s.draws := rfl

@[simp] theorem recordFailure_acc (e c : ErrCode) (s : State) : (recordFailure e c s).acc = s.acc := rfl
@[simp] theorem recordFailure_status (e c : ErrCode) (s : State) :
    (recordFailure e c s).status = s.status.failed e c := rfl
@[simp] theorem recordFailure_lenout (e c : ErrCode) (s : State) : (recordFailure e c s).lenout = s.lenout := rfl
@[simp] theorem recordFailure_ctx (e c : ErrCode) (s : State) : (recordFailure e c s).ctx = s.ctx := rfl
@[simp] theorem recordFailure_txbuf (e c : ErrCode) (s : State) : (recordFailure e c s).txbuf = s.txbuf := rfl
@[simp] theorem recordFailure_result (e c : ErrCode) (s : State) : (recordFailure e c s).result = .none := rfl
@[simp] theorem recordFailure_privAcc (e c : ErrCode) (s : State) : (recordFailure e c s).privAcc = s.privAcc := rfl
@[simp] theorem recordFailure_config (e c : ErrCode) (s : State) : (recordFailure e c s).config = s.config := rfl
@[simp] theorem recordFailure_commands (e c : ErrCode) (s : State) :
    (recordFailure e c s).commands = s.commands := rfl
@[simp] theorem recordFailure_draws (e c : ErrCode) (s : State) : (recordFailure e c s).draws = s.draws := rfl

@[simp] theorem raiseError_acc (e : ErrCode) (s : State) : (raiseError e s).acc = s.acc := rfl
@[simp] theorem raiseError_status (e : ErrCode) (s : State) : (raiseError e s).status = s.status.failed e e := rfl
@[simp] theorem raiseError_lenout (e : ErrCode) (s : State) : (raiseError e s).lenout = s.lenout := rfl
@[simp] theorem raiseError_ctx (e : ErrCode) (s : State) : (raiseError e s).ctx = s.ctx := rfl
@[simp] theorem raiseError_txbuf (e : ErrCode) (s : State) : (raiseError e s).txbuf = s.txbuf := rfl
@[simp] theorem raiseError_result (e : ErrCode) (s : State) : (raiseError e s).result = .none := rfl
@[simp] theorem raiseError_privAcc (e : ErrCode) (s : State) : (raiseError e s).privAcc = s.privAcc := rfl
@[simp] theorem raiseError_config (e : ErrCode) (s : State) : (raiseError e s).config = s.config := rfl
@[simp] theorem raiseError_commands (e : ErrCode) (s : State) : (raiseError e s).commands = s.commands := rfl
@[simp] theorem raiseError_draws (e : ErrCode) (s : State) : (raiseError e s).draws = s.draws := rfl

@[simp] theorem commitResult_acc (v : DecodeResult) (s : State) : (commitResult v s).acc = s.acc := rfl
@[simp] theorem commitResult_status (v : DecodeResult) (s : State) :
    (commitResult v s).status = s.status.decoded := rfl
@[simp] theorem commitResult_lenout (v : DecodeResult) (s : State) : (commitResult v s).lenout = s.lenout := rfl
@[simp] theorem commitResult_ctx (v : DecodeResult) (s : State) : (commitResult v s).ctx = s.ctx := rfl
@[simp] theorem commitResult_txbuf (v : DecodeResult) (s : State) : (commitResult v s).txbuf = s.txbuf := rfl
@[simp] theorem commitResult_result (v : DecodeResult) (s : State) : (commitResult v s).result = v := rfl
@[simp] theorem commitResult_privAcc (v : DecodeResult) (s : State) : (commitResult v s).privAcc = s.privAcc := rfl
@[simp] theorem commitResult_config (v : DecodeResult) (s : State) : (commitResult v s).config = s.config := rfl
@[simp] theorem commitResult_commands (v : DecodeResult) (s : State) : (commitResult v s).commands = s.commands := rfl
@[simp] theorem commitResult_draws (v : DecodeResult) (s : State) : (commitResult v s).draws = s.draws := rfl

@[simp] theorem setPrivAcc_acc (s : State) (v : Word) : (setPrivAcc s v).acc = s.acc := rfl
@[simp] theorem setPrivAcc_status (s : State) (v : Word) : (setPrivAcc s v).status = s.status := rfl
@[simp] theorem setPrivAcc_lenout (s : State) (v : Word) : (setPrivAcc s v).lenout = s.lenout := rfl
@[simp] theorem setPrivAcc_ctx (s : State) (v : Word) : (setPrivAcc s v).ctx = s.ctx := rfl
@[simp] theorem setPrivAcc_txbuf (s : State) (v : Word) : (setPrivAcc s v).txbuf = s.txbuf := rfl
@[simp] theorem setPrivAcc_result (s : State) (v : Word) : (setPrivAcc s v).result = s.result := rfl
@[simp] theorem setPrivAcc_privAcc (s : State) (v : Word) : (setPrivAcc s v).privAcc = v := rfl
@[simp] theorem setPrivAcc_config (s : State) (v : Word) : (setPrivAcc s v).config = s.config := rfl
@[simp] theorem setPrivAcc_commands (s : State) (v : Word) : (setPrivAcc s v).commands = s.commands := rfl
@[simp] theorem setPrivAcc_draws (s : State) (v : Word) : (setPrivAcc s v).draws = s.draws := rfl

@[simp] theorem writeTxbuf_acc (s : State) (b : List Byte) : (writeTxbuf s b).acc = s.acc := rfl
@[simp] theorem writeTxbuf_status (s : State) (b : List Byte) : (writeTxbuf s b).status = s.status := rfl
@[simp] theorem writeTxbuf_lenout (s : State) (b : List Byte) : (writeTxbuf s b).lenout = s.lenout := rfl
@[simp] theorem writeTxbuf_ctx (s : State) (b : List Byte) : (writeTxbuf s b).ctx = s.ctx := rfl
@[simp] theorem writeTxbuf_txbuf (s : State) (b : List Byte) : (writeTxbuf s b).txbuf = b := rfl
@[simp] theorem writeTxbuf_result (s : State) (b : List Byte) : (writeTxbuf s b).result = s.result := rfl
@[simp] theorem writeTxbuf_privAcc (s : State) (b : List Byte) : (writeTxbuf s b).privAcc = s.privAcc := rfl
@[simp] theorem writeTxbuf_config (s : State) (b : List Byte) : (writeTxbuf s b).config = s.config := rfl
@[simp] theorem writeTxbuf_commands (s : State) (b : List Byte) : (writeTxbuf s b).commands = s.commands := rfl
@[simp] theorem writeTxbuf_draws (s : State) (b : List Byte) : (writeTxbuf s b).draws = s.draws := rfl

@[simp] theorem latchRequest_acc (fc : Fc) (u : Byte) (b : List Byte) (n l : Word) (s : State) :
    (latchRequest fc u b n l s).acc = s.acc := rfl
@[simp] theorem latchRequest_status (fc : Fc) (u : Byte) (b : List Byte) (n l : Word) (s : State) :
    (latchRequest fc u b n l s).status = s.status.built := rfl
@[simp] theorem latchRequest_lenout (fc : Fc) (u : Byte) (b : List Byte) (n l : Word) (s : State) :
    (latchRequest fc u b n l s).lenout = s.lenout := rfl
@[simp] theorem latchRequest_ctx (fc : Fc) (u : Byte) (b : List Byte) (n l : Word) (s : State) :
    (latchRequest fc u b n l s).ctx = { valid := true, fc := fc.toByte, unit := u, count := n, explen := l } := rfl
@[simp] theorem latchRequest_txbuf (fc : Fc) (u : Byte) (b : List Byte) (n l : Word) (s : State) :
    (latchRequest fc u b n l s).txbuf = withCrc b := rfl
@[simp] theorem latchRequest_result (fc : Fc) (u : Byte) (b : List Byte) (n l : Word) (s : State) :
    (latchRequest fc u b n l s).result = .none := rfl
@[simp] theorem latchRequest_privAcc (fc : Fc) (u : Byte) (b : List Byte) (n l : Word) (s : State) :
    (latchRequest fc u b n l s).privAcc = crc b := rfl
@[simp] theorem latchRequest_config (fc : Fc) (u : Byte) (b : List Byte) (n l : Word) (s : State) :
    (latchRequest fc u b n l s).config = s.config := rfl
@[simp] theorem latchRequest_commands (fc : Fc) (u : Byte) (b : List Byte) (n l : Word) (s : State) :
    (latchRequest fc u b n l s).commands = s.commands := rfl
@[simp] theorem latchRequest_draws (fc : Fc) (u : Byte) (b : List Byte) (n l : Word) (s : State) :
    (latchRequest fc u b n l s).draws = s.draws := rfl

@[simp] theorem refuseRequest_acc (s : State) : (refuseRequest s).acc = s.acc := rfl
@[simp] theorem refuseRequest_status (s : State) :
    (refuseRequest s).status = s.status.failed .invalidRequest .invalidRequest := rfl
@[simp] theorem refuseRequest_lenout (s : State) : (refuseRequest s).lenout = s.lenout := rfl
@[simp] theorem refuseRequest_ctx (s : State) : (refuseRequest s).ctx = freeCtx s.draws := rfl
@[simp] theorem refuseRequest_txbuf (s : State) : (refuseRequest s).txbuf = [] := rfl
@[simp] theorem refuseRequest_result (s : State) : (refuseRequest s).result = .none := rfl
@[simp] theorem refuseRequest_privAcc (s : State) : (refuseRequest s).privAcc = crcInitial := rfl
@[simp] theorem refuseRequest_config (s : State) : (refuseRequest s).config = s.config := rfl
@[simp] theorem refuseRequest_commands (s : State) : (refuseRequest s).commands = s.commands := rfl
@[simp] theorem refuseRequest_draws (s : State) : (refuseRequest s).draws = s.draws + 1 := rfl

@[simp] theorem refuseLength_acc (s : State) : (refuseLength s).acc = s.acc := rfl
@[simp] theorem refuseLength_status (s : State) : (refuseLength s).status = s.status.withCst .invalidRequest := rfl
@[simp] theorem refuseLength_lenout (s : State) : (refuseLength s).lenout = 0x0000 := rfl
@[simp] theorem refuseLength_ctx (s : State) : (refuseLength s).ctx = s.ctx := rfl
@[simp] theorem refuseLength_txbuf (s : State) : (refuseLength s).txbuf = s.txbuf := rfl
@[simp] theorem refuseLength_result (s : State) : (refuseLength s).result = s.result := rfl
@[simp] theorem refuseLength_privAcc (s : State) : (refuseLength s).privAcc = s.privAcc := rfl
@[simp] theorem refuseLength_config (s : State) : (refuseLength s).config = s.config := rfl
@[simp] theorem refuseLength_commands (s : State) : (refuseLength s).commands = s.commands := rfl
@[simp] theorem refuseLength_draws (s : State) : (refuseLength s).draws = s.draws := rfl

@[simp] theorem sequenceError_acc (s : State) : (sequenceError s).acc = s.acc := rfl
@[simp] theorem sequenceError_status (s : State) : (sequenceError s).status = s.status.withCst .sequenceError := rfl
@[simp] theorem sequenceError_lenout (s : State) : (sequenceError s).lenout = s.lenout := rfl
@[simp] theorem sequenceError_ctx (s : State) : (sequenceError s).ctx = s.ctx := rfl
@[simp] theorem sequenceError_txbuf (s : State) : (sequenceError s).txbuf = s.txbuf := rfl
@[simp] theorem sequenceError_result (s : State) : (sequenceError s).result = s.result := rfl
@[simp] theorem sequenceError_privAcc (s : State) : (sequenceError s).privAcc = crcInitial := rfl
@[simp] theorem sequenceError_config (s : State) : (sequenceError s).config = s.config := rfl
@[simp] theorem sequenceError_commands (s : State) : (sequenceError s).commands = s.commands := rfl
@[simp] theorem sequenceError_draws (s : State) : (sequenceError s).draws = s.draws := rfl

@[simp] theorem freeCtx_valid (n : Nat) : (freeCtx n).valid = false := rfl

end Sys2Proof.Machine
end

