-- ==== Sys2Proof/Laws/Ops.lean ====
section
/-! SUPPORT. What each shared operation can do, said once: buffers, the CRC placement, packing, and one inversion lemma per
command class, which proofs cite instead of unfolding the operation. -/

namespace Sys2Proof.Machine

/-! ### Function codes -/

theorem ofByte?_toByte (fc : Fc) : Fc.ofByte? fc.toByte = some fc := by cases fc <;> decide

theorem toByte_injective {a b : Fc} (h : a.toByte = b.toByte) : a = b := by
  have := ofByte?_toByte a
  rw [h, ofByte?_toByte b] at this
  exact (Option.some.inj this).symm

theorem toByte_of_ofByte? {b : Byte} {fc : Fc} (h : Fc.ofByte? b = some fc) : fc.toByte = b := by
  have := List.find?_some h
  simpa using this

/-! ### Bytes and words -/

theorem joinBytes_be16 (v : Word) : joinBytes (hi8 v) (lo8 v) = v := by
  unfold joinBytes hi8 lo8
  ext i hi
  simp only [BitVec.getElem_append, BitVec.getElem_extractLsb']
  split <;> simp_all [BitVec.getLsbD_eq_getElem]

theorem be16_length (v : Word) : (be16 v).length = 2 := rfl

/-! ### Buffers -/

theorem memRead_eq_some {buf data : List Byte} {i n : Nat} :
    memRead buf i n = some data ↔ i + n ≤ buf.length ∧ data = (buf.drop i).take n := by
  unfold memRead
  split <;> simp_all [eq_comm]

theorem memRead_of_le {buf : List Byte} {i n : Nat} (h : i + n ≤ buf.length) :
    memRead buf i n = some ((buf.drop i).take n) := by
  simp [memRead, h]

theorem memRead_length {buf data : List Byte} {i n : Nat} (h : memRead buf i n = some data) : data.length = n := by
  obtain ⟨hle, rfl⟩ := memRead_eq_some.mp h
  simp; omega

/-! ### The CRC in a frame -/

theorem coveredBytes_append (bytes : List Byte) (low high : Byte) : coveredBytes (bytes ++ [low, high]) = bytes := by
  simp [coveredBytes]

theorem receivedCrc_append (bytes : List Byte) (low high : Byte) :
    receivedCrc (bytes ++ [low, high]) = some (joinBytes high low) := by
  have h : (bytes ++ [low, high]).drop ((bytes ++ [low, high]).length - 2) = [low, high] := by simp
  simp only [receivedCrc, h]

theorem receivedCrc_isSome {t : List Byte} (h : 2 ≤ t.length) : ∃ v, receivedCrc t = some v := by
  have hl : (t.drop (t.length - 2)).length = 2 := by simp; omega
  match hd : t.drop (t.length - 2), hl with
  | [low, high], _ => exact ⟨joinBytes high low, by simp only [receivedCrc, hd]⟩

theorem withCrc_length (bytes : List Byte) : (withCrc bytes).length = bytes.length + 2 := by simp [withCrc]

theorem crcValid_withCrc (bytes : List Byte) : crcValid (withCrc bytes) = true := by
  simp [crcValid, withCrc, receivedCrc_append, coveredBytes_append, joinBytes_be16]

/-! ### Packing -/

/-- A sum of distinct powers of two, below bit 8, has exactly their bits. -/
theorem sum_bits_getLsbD (f : Nat → Bool) {j : Nat} (hj : j < 8) :
    (BitVec.ofNat 8 ((List.range 8).map (fun j => if f j then 2 ^ j else 0)).sum).getLsbD j = f j := by
  have hr : List.range 8 = [0, 1, 2, 3, 4, 5, 6, 7] := by decide
  simp only [hr, List.map_cons, List.map_nil, List.sum_cons, List.sum_nil]
  rcases j with _ | _ | _ | _ | _ | _ | _ | _ | j
  case succ => omega
  all_goals
    cases f 0 <;> cases f 1 <;> cases f 2 <;> cases f 3 <;> cases f 4 <;> cases f 5 <;> cases f 6 <;> cases f 7 <;> rfl

/-- Bit j of packed byte k is element 8k+j, zero past the end (30_encoding.md rule R70). -/
theorem packByte_getLsbD (bits : List Bool) (k : Nat) {j : Nat} (hj : j < 8) :
    (packByte bits k).getLsbD j = bits.getD (8 * k + j) false :=
  sum_bits_getLsbD (fun j => bits.getD (8 * k + j) false) hj

theorem packBits_length (bits : List Bool) : (packBits bits).length = ceil8 bits.length := by simp [packBits]

theorem packWords_length (words : List Word) : (packWords words).length = 2 * words.length := by
  induction words with
  | nil => rfl
  | cons w ws ih => simp only [packWords, List.flatMap_cons, List.length_append, List.length_cons, be16_length] at *; omega

theorem unpackBits_length (data : List Byte) (c : Nat) : (unpackBits data c).length = c := by simp [unpackBits]

theorem unpackWords_length : (data : List Byte) → (unpackWords data).length = data.length / 2
  | [] => rfl
  | [_] => by simp [unpackWords]
  | _ :: _ :: rest => by
    simp only [unpackWords, List.length_cons, unpackWords_length rest]; omega

/-! ### Validity of a request -/

/-- `valid` as the conjunction of 41_frame_encoder.md rule R120. -/
theorem requestValid_iff {cfg : Config} {fc : Fc} {ops : Ports} :
    requestValid cfg fc ops = true ↔
      countAllowed fc ops = true ∧ reqLen fc ops ≤ cfg.maxAdu ∧ expLen fc ops ≤ cfg.maxAdu := by
  simp only [requestValid, Bool.and_eq_true, decide_eq_true_eq, and_assoc]

theorem countAllowed_wmc {ops : Ports} :
    countAllowed .wmc ops = true ↔ 1 ≤ ops.bits.length ∧ ceil8 ops.bits.length ≤ 255 := by
  simp only [countAllowed, decide_eq_true_eq]

theorem countAllowed_wmr {ops : Ports} :
    countAllowed .wmr ops = true ↔ 1 ≤ ops.words.length ∧ 2 * ops.words.length ≤ 255 := by
  simp only [countAllowed, decide_eq_true_eq]

/-! ### What a command class can do -/

theorem resolveLength_valid {fc : Fc} {ops : Ports} {s : State} (h : requestValid s.config fc ops = true) :
    resolveLength fc ops s = .next (complete { s with lenout := BitVec.ofNat 16 (expLen fc ops) }) := if_pos h

theorem resolveLength_invalid {fc : Fc} {ops : Ports} {s : State} (h : requestValid s.config fc ops = false) :
    resolveLength fc ops s = .next (refuseLength s) := if_neg (by simp [h])

theorem encodeRequest_valid {fc : Fc} {ops : Ports} {body : List Byte} {count : Word} {s : State}
    (h : requestValid s.config fc ops = true) :
    encodeRequest fc ops body count s =
      .next (latchRequest fc ops.unit body count (BitVec.ofNat 16 (expLen fc ops)) s) := if_pos h

theorem encodeRequest_invalid {fc : Fc} {ops : Ports} {body : List Byte} {count : Word} {s : State}
    (h : requestValid s.config fc ops = false) :
    encodeRequest fc ops body count s = .next (refuseRequest s) := if_neg (by simp [h])

/-- RESOLVE_LEN answers a length or refuses (42_length_resolver.md rule R151). -/
theorem resolveLength_cases {fc : Fc} {ops : Ports} {s : State} {o : Host.Outcome State Fault Refusal}
    (h : resolveLength fc ops s = o) :
    (requestValid s.config fc ops = true ∧
      o = .next (complete { s with lenout := BitVec.ofNat 16 (expLen fc ops) })) ∨
    (requestValid s.config fc ops = false ∧ o = .next (refuseLength s)) := by
  unfold resolveLength at h
  split at h
  · exact .inl ⟨by assumption, h.symm⟩
  · exact .inr ⟨by simp_all, h.symm⟩

/-- ENCODE latches a request or refuses it (41_frame_encoder.md rule R122). -/
theorem encodeRequest_cases {fc : Fc} {ops : Ports} {body : List Byte} {count : Word} {s : State}
    {o : Host.Outcome State Fault Refusal} (h : encodeRequest fc ops body count s = o) :
    (requestValid s.config fc ops = true ∧
      o = .next (latchRequest fc ops.unit body count (BitVec.ofNat 16 (expLen fc ops)) s)) ∨
    (requestValid s.config fc ops = false ∧ o = .next (refuseRequest s)) := by
  unfold encodeRequest at h
  split at h
  · exact .inl ⟨by assumption, h.symm⟩
  · exact .inr ⟨by simp_all, h.symm⟩

/-- ABORT records the host's failure or a sequence error (44_control.md rule R200). -/
theorem abortWith_cases {e : ErrCode} {s : State} {o : Host.Outcome State Fault Refusal} (h : abortWith e s = o) :
    (s.ctx.valid = false ∧ o = .next (failCommand .sequenceError s)) ∨
    (s.ctx.valid = true ∧ o = .next (recordFailure e .ok s)) := by
  unfold abortWith at h
  split at h
  · exact .inl ⟨by assumption, h.symm⟩
  · exact .inr ⟨by simp_all, h.symm⟩

/-- DECODE's checks in their order, and what each outcome is (43_response_decoder.md rules R170, R171). -/
theorem decodeResponse_cases {fc : Fc} {rx : List Byte} {x : Extraction} {s : State}
    {o : Host.Outcome State Fault Refusal} (h : decodeResponse fc rx x s = o) :
    ((s.ctx.valid = false ∨ fc.toByte ≠ s.ctx.fc) ∧ o = .next (sequenceError s)) ∨
    (s.ctx.valid = true ∧ fc.toByte = s.ctx.fc ∧
      ((rx.length ≠ s.ctx.explen.toNat ∧
          o = .next (raiseError .invalidResponseLength (setPrivAcc s crcInitial))) ∨
       (rx.length = s.ctx.explen.toNat ∧
          ((receivedCrc rx = none ∧ o = .fault .readOutsideBuffer) ∨
           (∃ r, receivedCrc rx = some r ∧ crc (coveredBytes rx) ≠ r ∧
              o = .next (raiseError .checksumMismatch (setPrivAcc s (crc (coveredBytes rx))))) ∨
           (receivedCrc rx = some (crc (coveredBytes rx)) ∧
              o = finishDecode x (setPrivAcc s (crc (coveredBytes rx)))))))) := by
  subst h
  unfold decodeResponse
  split
  · exact .inl ⟨by assumption, rfl⟩
  · rename_i hseq
    have hv : s.ctx.valid = true := by cases hc : s.ctx.valid <;> simp_all
    have hf : fc.toByte = s.ctx.fc := by by_contra hne; exact hseq (.inr hne)
    refine .inr ⟨hv, hf, ?_⟩
    split
    · exact .inl ⟨by assumption, rfl⟩
    · rename_i hlen
      refine .inr ⟨by simpa using hlen, ?_⟩
      unfold checkCrc
      split
      · exact .inl ⟨by assumption, rfl⟩
      · rename_i r hr
        split
        · rename_i hc
          exact .inr (.inr ⟨by rw [hr, hc], rfl⟩)
        · rename_i hc
          exact .inr (.inl ⟨r, hr, hc, rfl⟩)

/-- What follows the length and CRC checks (43_response_decoder.md rule R171). -/
theorem finishDecode_cases {x : Extraction} {s : State} {o : Host.Outcome State Fault Refusal}
    (h : finishDecode x s = o) :
    (∃ v, x = .value v ∧ o = .next (commitResult v s)) ∨
    (x = .wrongEcho ∧ o = .next (raiseError .echoMismatch s)) ∨
    (x = .unreadable ∧ o = .fault .readOutsideBuffer) := by
  subst h
  cases x <;> simp [finishDecode]

/-! ### TXBUF, the block's memory: every write keeps its bound (10_state.md rule R31) -/

/-- A latched request's frame has the request's length. -/
theorem latchRequest_txbuf_length (fc : Fc) (u : Byte) (body : List Byte) (n l : Word) (s : State) :
    (latchRequest fc u body n l s).txbuf.length = body.length + 2 := by
  simp [withCrc_length]

theorem writeTxbuf_bound {s : State} {bytes : List Byte} (h : bytes.length ≤ s.config.maxAdu) :
    (writeTxbuf s bytes).txbuf.length ≤ (writeTxbuf s bytes).config.maxAdu := by simpa using h

theorem latchRequest_bound {fc : Fc} {u : Byte} {body : List Byte} {n l : Word} {s : State}
    (h : body.length + 2 ≤ s.config.maxAdu) :
    (latchRequest fc u body n l s).txbuf.length ≤ (latchRequest fc u body n l s).config.maxAdu := by
  simpa [withCrc_length] using h

theorem refuseRequest_bound (s : State) : (refuseRequest s).txbuf.length ≤ (refuseRequest s).config.maxAdu := by
  simp

end Sys2Proof.Machine
end

