-- ==== Sys2Proof/Laws/Decode.lean ====
section
/-! SUPPORT. The small lemmas of the decoder and the encoder: what the fields of a command word are, and what each reader
answers for a function code of the set. -/

namespace Sys2Proof

@[simp] theorem opcOf_commandWord (opc arg : Byte) : opcOf (commandWord opc arg) = opc := by
  have h (i : Nat) : (commandWord opc arg).getLsbD (8 + i) = opc.getLsbD i := by
    have := BitVec.getLsbD_append (x := opc) (y := arg) (i := 8 + i)
    simp only [Nat.not_lt.mpr (Nat.le_add_right 8 i), if_false, Nat.add_sub_cancel_left] at this
    exact this
  ext i hi
  simp [opcOf, h, hi, BitVec.getLsbD_eq_getElem]

@[simp] theorem arg8Of_commandWord (opc arg : Byte) : arg8Of (commandWord opc arg) = arg := by
  have h (i : Nat) (hi : i < 8) : (commandWord opc arg).getLsbD i = arg.getLsbD i := by
    have := BitVec.getLsbD_append (x := opc) (y := arg) (i := i)
    simp only [hi, if_true] at this
    exact this
  ext i hi
  simp [arg8Of, h, hi, BitVec.getLsbD_eq_getElem]

/-- A command word is its OPC and its ARG8 (30_encoding.md rule R60). -/
theorem commandWord_fields (cw : Word) : commandWord (opcOf cw) (arg8Of cw) = cw := by
  unfold opcOf arg8Of commandWord
  ext i hi
  simp only [BitVec.getElem_append, BitVec.getElem_extractLsb']
  split <;> simp_all [BitVec.getLsbD_eq_getElem]

theorem readCommand_resolve (arg : Byte) (p : Ports) : readCommand ⟨commandWord 0x05 arg, p⟩ = readResolve arg p := by
  simp [readCommand]

theorem readCommand_encode (arg : Byte) (p : Ports) : readCommand ⟨commandWord 0x06 arg, p⟩ = readEncode arg p := by
  simp [readCommand]

theorem readCommand_decode (arg : Byte) (p : Ports) : readCommand ⟨commandWord 0x07 arg, p⟩ = readDecode arg p := by
  simp [readCommand]

theorem readCommand_abort (arg : Byte) (p : Ports) : readCommand ⟨commandWord 0x08 arg, p⟩ = readAbort arg := by
  simp [readCommand]

theorem readResolve_toByte (fc : Fc) (p : Ports) : readResolve fc.toByte p = resolveOf fc p := by
  simp [readResolve, Machine.ofByte?_toByte]

theorem readEncode_toByte (fc : Fc) (p : Ports) : readEncode fc.toByte p = encodeOf fc p := by
  simp [readEncode, Machine.ofByte?_toByte]

theorem readDecode_toByte (fc : Fc) (p : Ports) : readDecode fc.toByte p = decodeOf fc p.rx := by
  simp [readDecode, Machine.ofByte?_toByte]

/-- The decoder accepts what it reads exactly where no port is longer than its type. -/
theorem decode_eq_ok {c : Command} {i : Instr} : decode c = .ok i ↔ readCommand c = i ∧ portError i = none := by
  unfold decode
  cases h : portError (readCommand c)
  · simp only [h, Except.ok.injEq]
    constructor
    · rintro rfl
      exact ⟨rfl, h⟩
    · exact And.left
  · simp only [h, reduceCtorEq, false_iff]
    rintro ⟨rfl, hp⟩
    simp [hp] at h

theorem decode_eq_error {c : Command} {e : DecodeError} : decode c = .error e ↔ portError (readCommand c) = some e := by
  unfold decode
  cases h : portError (readCommand c) <;> simp [h]

end Sys2Proof
end

