-- ==== Sys2Proof/Laws/PerInstr.lean ====
section
/-! SUPPORT. A statement about every command as syntax, one lemma per constructor of `Instr`: the command word it encodes to
lies in its own row of spec/opcode_table.json, with the mask and the value the table gives the row. -/

namespace Sys2Proof.Laws

/-- The word of `i` has the bits that the table fixes for the row of `i`. -/
def CommandWord.Statement (i : Instr) : Prop :=
  ∃ r, opcodeTable[rowOf i]? = some r ∧ (encode i).cw &&& r.mask = r.value

/-- A word made of high bits `p` and low bits `low` keeps exactly `p` under the mask of the high bits. -/
theorem CommandWord.append_and_high {m n : Nat} (p : BitVec m) (low : BitVec n) :
    (p ++ low) &&& (BitVec.allOnes m ++ 0#n) = p ++ 0#n := by
  ext i hi
  simp only [BitVec.getElem_and, BitVec.getElem_append]
  split <;> simp

theorem CommandWord.crcInit (arg : Byte) : CommandWord.Statement (.crcInit arg) :=
  ⟨_, rfl, CommandWord.append_and_high 0x01#8 arg⟩
theorem CommandWord.crcUpdate (data : Byte) : CommandWord.Statement (.crcUpdate data) :=
  ⟨_, rfl, CommandWord.append_and_high 0x02#8 data⟩
theorem CommandWord.crcCompute (arg : Byte) (bytes : List Byte) : CommandWord.Statement (.crcCompute arg bytes) :=
  ⟨_, rfl, CommandWord.append_and_high 0x03#8 arg⟩
theorem CommandWord.crcVerify (arg : Byte) (bytes : List Byte) (rxcrc : Word) :
    CommandWord.Statement (.crcVerify arg bytes rxcrc) :=
  ⟨_, rfl, CommandWord.append_and_high 0x04#8 arg⟩
theorem CommandWord.resolveRC (count : Word) : CommandWord.Statement (.resolveRC count) :=
  ⟨_, rfl, (by decide : commandWord 0x05 0x01 &&& 0xFFFF = 0x0501)⟩
theorem CommandWord.resolveRDI (count : Word) : CommandWord.Statement (.resolveRDI count) :=
  ⟨_, rfl, (by decide : commandWord 0x05 0x02 &&& 0xFFFF = 0x0502)⟩
theorem CommandWord.resolveRHR : CommandWord.Statement .resolveRHR := ⟨_, rfl, rfl⟩
theorem CommandWord.resolveRIR (count : Word) : CommandWord.Statement (.resolveRIR count) :=
  ⟨_, rfl, (by decide : commandWord 0x05 0x04 &&& 0xFFFF = 0x0504)⟩
theorem CommandWord.resolveWSC : CommandWord.Statement .resolveWSC := ⟨_, rfl, rfl⟩
theorem CommandWord.resolveWSR : CommandWord.Statement .resolveWSR := ⟨_, rfl, rfl⟩
theorem CommandWord.resolveRES : CommandWord.Statement .resolveRES := ⟨_, rfl, rfl⟩
theorem CommandWord.resolveDIAG (bytes : List Byte) : CommandWord.Statement (.resolveDIAG bytes) :=
  ⟨_, rfl, (by decide : commandWord 0x05 0x08 &&& 0xFFFF = 0x0508)⟩
theorem CommandWord.resolveWMC (bits : List Bool) : CommandWord.Statement (.resolveWMC bits) :=
  ⟨_, rfl, (by decide : commandWord 0x05 0x0F &&& 0xFFFF = 0x050F)⟩
theorem CommandWord.resolveWMR (words : List Word) : CommandWord.Statement (.resolveWMR words) :=
  ⟨_, rfl, (by decide : commandWord 0x05 0x10 &&& 0xFFFF = 0x0510)⟩
theorem CommandWord.resolveInvalid (fc : Byte) : CommandWord.Statement (.resolveInvalid fc) :=
  ⟨_, rfl, CommandWord.append_and_high 0x05#8 fc⟩
theorem CommandWord.encodeRC (unit : Byte) (addr count : Word) : CommandWord.Statement (.encodeRC unit addr count) :=
  ⟨_, rfl, (by decide : commandWord 0x06 0x01 &&& 0xFFFF = 0x0601)⟩
theorem CommandWord.encodeRDI (unit : Byte) (addr count : Word) :
    CommandWord.Statement (.encodeRDI unit addr count) :=
  ⟨_, rfl, (by decide : commandWord 0x06 0x02 &&& 0xFFFF = 0x0602)⟩
theorem CommandWord.encodeRHR (unit : Byte) (addr : Word) : CommandWord.Statement (.encodeRHR unit addr) :=
  ⟨_, rfl, (by decide : commandWord 0x06 0x03 &&& 0xFFFF = 0x0603)⟩
theorem CommandWord.encodeRIR (unit : Byte) (addr count : Word) :
    CommandWord.Statement (.encodeRIR unit addr count) :=
  ⟨_, rfl, (by decide : commandWord 0x06 0x04 &&& 0xFFFF = 0x0604)⟩
theorem CommandWord.encodeWSC (unit : Byte) (addr : Word) (state : Bool) :
    CommandWord.Statement (.encodeWSC unit addr state) :=
  ⟨_, rfl, (by decide : commandWord 0x06 0x05 &&& 0xFFFF = 0x0605)⟩
theorem CommandWord.encodeWSR (unit : Byte) (addr value : Word) :
    CommandWord.Statement (.encodeWSR unit addr value) :=
  ⟨_, rfl, (by decide : commandWord 0x06 0x06 &&& 0xFFFF = 0x0606)⟩
theorem CommandWord.encodeRES (unit : Byte) : CommandWord.Statement (.encodeRES unit) :=
  ⟨_, rfl, (by decide : commandWord 0x06 0x07 &&& 0xFFFF = 0x0607)⟩
theorem CommandWord.encodeDIAG (unit : Byte) (bytes : List Byte) : CommandWord.Statement (.encodeDIAG unit bytes) :=
  ⟨_, rfl, (by decide : commandWord 0x06 0x08 &&& 0xFFFF = 0x0608)⟩
theorem CommandWord.encodeWMC (unit : Byte) (addr : Word) (bits : List Bool) :
    CommandWord.Statement (.encodeWMC unit addr bits) :=
  ⟨_, rfl, (by decide : commandWord 0x06 0x0F &&& 0xFFFF = 0x060F)⟩
theorem CommandWord.encodeWMR (unit : Byte) (addr : Word) (words : List Word) :
    CommandWord.Statement (.encodeWMR unit addr words) :=
  ⟨_, rfl, (by decide : commandWord 0x06 0x10 &&& 0xFFFF = 0x0610)⟩
theorem CommandWord.encodeInvalid (fc : Byte) : CommandWord.Statement (.encodeInvalid fc) :=
  ⟨_, rfl, CommandWord.append_and_high 0x06#8 fc⟩
theorem CommandWord.decodeRC (rx : List Byte) : CommandWord.Statement (.decodeRC rx) :=
  ⟨_, rfl, (by decide : commandWord 0x07 0x01 &&& 0xFFFF = 0x0701)⟩
theorem CommandWord.decodeRDI (rx : List Byte) : CommandWord.Statement (.decodeRDI rx) :=
  ⟨_, rfl, (by decide : commandWord 0x07 0x02 &&& 0xFFFF = 0x0702)⟩
theorem CommandWord.decodeRHR (rx : List Byte) : CommandWord.Statement (.decodeRHR rx) :=
  ⟨_, rfl, (by decide : commandWord 0x07 0x03 &&& 0xFFFF = 0x0703)⟩
theorem CommandWord.decodeRIR (rx : List Byte) : CommandWord.Statement (.decodeRIR rx) :=
  ⟨_, rfl, (by decide : commandWord 0x07 0x04 &&& 0xFFFF = 0x0704)⟩
theorem CommandWord.decodeWSC (rx : List Byte) : CommandWord.Statement (.decodeWSC rx) :=
  ⟨_, rfl, (by decide : commandWord 0x07 0x05 &&& 0xFFFF = 0x0705)⟩
theorem CommandWord.decodeWSR (rx : List Byte) : CommandWord.Statement (.decodeWSR rx) :=
  ⟨_, rfl, (by decide : commandWord 0x07 0x06 &&& 0xFFFF = 0x0706)⟩
theorem CommandWord.decodeRES (rx : List Byte) : CommandWord.Statement (.decodeRES rx) :=
  ⟨_, rfl, (by decide : commandWord 0x07 0x07 &&& 0xFFFF = 0x0707)⟩
theorem CommandWord.decodeDIAG (rx : List Byte) : CommandWord.Statement (.decodeDIAG rx) :=
  ⟨_, rfl, (by decide : commandWord 0x07 0x08 &&& 0xFFFF = 0x0708)⟩
theorem CommandWord.decodeWMC (rx : List Byte) : CommandWord.Statement (.decodeWMC rx) :=
  ⟨_, rfl, (by decide : commandWord 0x07 0x0F &&& 0xFFFF = 0x070F)⟩
theorem CommandWord.decodeWMR (rx : List Byte) : CommandWord.Statement (.decodeWMR rx) :=
  ⟨_, rfl, (by decide : commandWord 0x07 0x10 &&& 0xFFFF = 0x0710)⟩
theorem CommandWord.decodeInvalid (fc : Byte) : CommandWord.Statement (.decodeInvalid fc) :=
  ⟨_, rfl, CommandWord.append_and_high 0x07#8 fc⟩
theorem CommandWord.abortTransportError : CommandWord.Statement .abortTransportError := ⟨_, rfl, rfl⟩
theorem CommandWord.abortTimeout : CommandWord.Statement .abortTimeout := ⟨_, rfl, rfl⟩
theorem CommandWord.abortInvalidResponseLength : CommandWord.Statement .abortInvalidResponseLength := ⟨_, rfl, rfl⟩
theorem CommandWord.abortIllegal (code : Byte) : CommandWord.Statement (.abortIllegal code) :=
  ⟨_, rfl, CommandWord.append_and_high 0x08#8 code⟩
theorem CommandWord.reset (arg : Byte) : CommandWord.Statement (.reset arg) :=
  ⟨_, rfl, CommandWord.append_and_high 0x09#8 arg⟩
theorem CommandWord.illegalOpc00 (arg : Byte) : CommandWord.Statement (.illegalOpc00 arg) :=
  ⟨_, rfl, CommandWord.append_and_high 0x00#8 arg⟩
theorem CommandWord.illegalOpc0A0B (low : BitVec 9) : CommandWord.Statement (.illegalOpc0A0B low) :=
  ⟨_, rfl, CommandWord.append_and_high 0b0000101#7 low⟩
theorem CommandWord.illegalOpc0C0F (low : BitVec 10) : CommandWord.Statement (.illegalOpc0C0F low) :=
  ⟨_, rfl, CommandWord.append_and_high 0b000011#6 low⟩
theorem CommandWord.illegalOpc101F (low : BitVec 12) : CommandWord.Statement (.illegalOpc101F low) :=
  ⟨_, rfl, CommandWord.append_and_high 0b0001#4 low⟩
theorem CommandWord.illegalOpc203F (low : BitVec 13) : CommandWord.Statement (.illegalOpc203F low) :=
  ⟨_, rfl, CommandWord.append_and_high 0b001#3 low⟩
theorem CommandWord.illegalOpc407F (low : BitVec 14) : CommandWord.Statement (.illegalOpc407F low) :=
  ⟨_, rfl, CommandWord.append_and_high 0b01#2 low⟩
theorem CommandWord.illegalOpc80FF (low : BitVec 15) : CommandWord.Statement (.illegalOpc80FF low) :=
  ⟨_, rfl, CommandWord.append_and_high 0b1#1 low⟩

end Sys2Proof.Laws
end

