-- ==== Sys2Proof/Laws/Protocol.lean ====
section
/-! SUPPORT. What each operation of the host protocol can do, said once. -/

namespace Sys2Proof.Machine

theorem issue_eq_some {i : Instr} {s t : State} : issue i s = some t ↔ exec i s = .next t := by
  unfold issue
  cases exec i s <;> simp

theorem Transaction.drive_eq_some {x y : Transaction} {i : Instr} {phase : HostPhase} :
    x.drive i phase = some y ↔ ∃ t, exec i x.block = .next t ∧ y = { x with phase := phase, block := t } := by
  simp only [Transaction.drive, Option.map_eq_some_iff, issue_eq_some]
  exact exists_congr fun t => and_congr_right fun _ => eq_comm

theorem Transaction.judge_eq_some {x y : Transaction} {i : Instr} {good : Phase} {phase : HostPhase} :
    x.judge i good phase = some y ↔
      ∃ t, exec i x.block = .next t ∧ y = { x with phase := if t.status.phase = good then phase else .failed, block := t } := by
  simp only [Transaction.judge, Option.map_eq_some_iff, issue_eq_some]
  exact exists_congr fun t => and_congr_right fun _ => eq_comm

theorem Transaction.retransmit_eq_some {x y : Transaction} :
    x.retransmit = some y ↔
      x.phase = .failed ∧ x.block.ctx.valid = true ∧ y = { x.sendAgain with resent := true } := by
  unfold Transaction.retransmit
  split
  · rename_i h
    exact ⟨fun e => ⟨h.1, h.2, (Option.some.inj e).symm⟩, fun e => e.2.2 ▸ rfl⟩
  · rename_i h
    exact ⟨fun e => (nomatch e), fun e => absurd ⟨e.1, e.2.1⟩ h⟩

@[simp] theorem Transaction.sendAgain_phase (x : Transaction) : x.sendAgain.phase = .sending := rfl
@[simp] theorem Transaction.sendAgain_fc (x : Transaction) : x.sendAgain.fc = x.fc := rfl
@[simp] theorem Transaction.sendAgain_rx (x : Transaction) : x.sendAgain.rx = [] := rfl
@[simp] theorem Transaction.sendAgain_resent (x : Transaction) : x.sendAgain.resent = x.resent := rfl
@[simp] theorem Transaction.sendAgain_block (x : Transaction) : x.sendAgain.block = x.block := rfl

/-- A transport failure happens with a request on its way. -/
theorem TransportFailure.happensIn_outstanding (f : TransportFailure) : f.happensIn.outstanding = true := by
  cases f <;> rfl

end Sys2Proof.Machine
end

