-- ==== Sys2Proof/Laws/Step.lean ====
section
/-! SUPPORT. What one step can do, said once, and how a run of the host's interface unfolds into steps. -/

namespace Sys2Proof.Machine

theorem step_idle {s : State} (h : s.commands = []) : step s = .next s := by simp [step, h]

theorem step_decoded {s : State} {c : Command} {rest : List Command} {i : Instr} (h : s.commands = c :: rest)
    (hd : decode c = .ok i) : step s = exec i { s with commands := rest } := by
  simp [step, h, hd]

theorem step_malformed {s : State} {c : Command} {rest : List Command} {e : DecodeError} (h : s.commands = c :: rest)
    (hd : decode c = .error e) : step s = .refused (.malformedCommand e) := by
  simp [step, h, hd]

/-- A step holds the state, runs the decoded command, or refuses a malformed one. -/
theorem step_cases {s : State} {o : Host.Outcome State Fault Refusal} (h : step s = o) :
    (s.commands = [] ∧ o = .next s) ∨
    (∃ c rest, s.commands = c :: rest ∧
      ((∃ i, decode c = .ok i ∧ o = exec i { s with commands := rest }) ∨
       (∃ e, decode c = .error e ∧ o = .refused (.malformedCommand e)))) := by
  subst h
  cases hc : s.commands with
  | nil => exact .inl ⟨rfl, step_idle hc⟩
  | cons c rest =>
    refine .inr ⟨c, rest, rfl, ?_⟩
    cases hd : decode c with
    | ok i => exact .inl ⟨i, rfl, step_decoded hc hd⟩
    | error e => exact .inr ⟨e, rfl, step_malformed hc hd⟩

/-- A run of k + 1 steps whose first step answers `t` is a run of k steps from `t`. -/
theorem run_succ {k : Nat} {s t : State} (h : step s = .next t) :
    Host.Core.run Sys2Proof.core (k + 1) s = Host.Core.run Sys2Proof.core k t := by
  have h' : Sys2Proof.core.step s = .next t := h
  exact (Host.Core.run.eq_2 Sys2Proof.core s k).trans (by rw [h'])

end Sys2Proof.Machine
end

