-- ==== Sys2Proof/Tests/Slice0.lean ====
section
/-! SUPPORT. Small tests of the model against the worked examples and vectors of spec/ (95_test_vectors.md and the examples of
the rules), and for every statement with hypotheses a witness that meets them. The expected values are the spec's. -/

namespace Sys2Proof.Tests

set_option Elab.async false

open Sys2Proof Sys2Proof.Machine Sys2Proof.Claims

/-! ### Helpers: one state per ENC vector of 95_test_vectors.md section 2.2 -/

/-- The state after one command from `s`, `s` itself if it stops. -/
def go (i : Instr) (s : State) : State := (issue i s).getD s

/-- After ENC-RC-1. -/
def builtRC : State := go (.encodeRC 1 0 10) State.reset
/-- After `ENCODE.RDI unit=1, addr=0, count=3`. -/
def builtRDI : State := go (.encodeRDI 1 0 3) State.reset
/-- After ENC-RHR-1. -/
def builtRHR : State := go (.encodeRHR 1 0) State.reset
/-- After ENC-RIR-1. -/
def builtRIR : State := go (.encodeRIR 1 8 2) State.reset
/-- After ENC-WSC-1. -/
def builtWSC : State := go (.encodeWSC 1 0x00AC true) State.reset
/-- After ENC-WSR-1. -/
def builtWSR : State := go (.encodeWSR 1 1 0x1234) State.reset
/-- After ENC-RES-1. -/
def builtRES : State := go (.encodeRES 1) State.reset
/-- After ENC-DIAG-1. -/
def builtDIAG : State := go (.encodeDIAG 1 [0xA5, 0x37]) State.reset
/-- After ENC-WMC-1. -/
def builtWMC : State := go (.encodeWMC 1 0 [true, false, true]) State.reset
/-- After ENC-WMR-1. -/
def builtWMR : State := go (.encodeWMR 1 1 [0x000A, 0x0102]) State.reset

/-- One bit more than the BITS port admits (30_encoding.md rule R63). -/
def longBits : List Bool := List.replicate 65536 true
/-- One word more than the WORDS port admits. -/
def longWords : List Word := List.replicate 65536 0

theorem longBits_length : longBits.length = 65536 := List.length_replicate
theorem longWords_length : longWords.length = 65536 := List.length_replicate

/-- Whether a command answers a next state with this STATUS word. -/
def endsWith (i : Instr) (s : State) (status : Word) : Bool := (issue i s).map (fun t => t.status.toWord) == some status

/-- Whether DECODE answers this RESULT and this STATUS word and keeps CTX and TXBUF. -/
def gives (i : Instr) (s : State) (r : DecodeResult) (status : Word) : Bool :=
  (issue i s).map (fun t => (t.result, t.status.toWord, t.ctx, t.txbuf)) == some (r, status, s.ctx, s.txbuf)

/-- Whether ENCODE from reset leaves this frame in TXBUF, this count and response length in CTX, and PHASE BUILT. -/
def sends (i : Instr) (frame : List Byte) (count explen : Word) : Bool :=
  (issue i State.reset).map (fun t => (t.txbuf, t.ctx.valid, t.ctx.count, t.ctx.explen, t.status.toWord)) ==
    some (frame, true, count, explen, 0x0001)

/-- Whether ENCODE is refused: TXBUF empty, CTX not valid, STATUS 0x0663. -/
def refuses (i : Instr) (s : State) : Bool :=
  (issue i s).map (fun t => (t.txbuf, t.ctx.valid, t.result, t.status.toWord)) == some ([], false, .none, 0x0663)

/-- Whether RESOLVE_LEN from reset answers this length and STATUS word. -/
def resolves (i : Instr) (len status : Word) : Bool :=
  (issue i State.reset).map (fun t => (t.lenout, t.status.toWord)) == some (len, status)

/-! ### Well-formed commands, and one ill-formed term for each check -/

theorem test_wf_resolveWMC_rejects_long_bits : (Instr.resolveWMC longBits).wf = false := by
  simp [Instr.wf, portMax, longBits_length]
theorem test_wf_resolveWMR_rejects_long_words : (Instr.resolveWMR longWords).wf = false := by
  simp [Instr.wf, portMax, longWords_length]
theorem test_wf_encodeWMC_rejects_long_bits : (Instr.encodeWMC 1 0 longBits).wf = false := by
  simp [Instr.wf, portMax, longBits_length]
theorem test_wf_encodeWMR_rejects_long_words : (Instr.encodeWMR 1 0 longWords).wf = false := by
  simp [Instr.wf, portMax, longWords_length]
theorem test_wf_resolveInvalid_rejects_function_code : (Instr.resolveInvalid 0x01).wf = false := by decide
theorem test_wf_encodeInvalid_rejects_function_code : (Instr.encodeInvalid 0x10).wf = false := by decide
theorem test_wf_decodeInvalid_rejects_function_code : (Instr.decodeInvalid 0x0F).wf = false := by decide
theorem test_wf_abortIllegal_rejects_abort_code : (Instr.abortIllegal 0x03).wf = false := by decide
theorem test_portsWf_rejects_long_bits : ({ Ports.idle with bits := longBits } : Ports).wf = false := by
  simp [Ports.wf, portMax, longBits_length]
theorem test_portsWf_rejects_long_words : ({ Ports.idle with words := longWords } : Ports).wf = false := by
  simp [Ports.wf, portMax, longWords_length]

/-! ### Command words written out bit by bit (30_encoding.md rules R60 to R62 and spec/opcode_table.json) -/

/-- Ports with a different value on each. -/
def ports : Ports :=
  { unit := 0x11, addr := 0x006B, count := 3, state := true, value := 0x1234, bits := [true, false], words := [7],
    bytes := [0xA5], rxcrc := 0x0A84, rx := [1, 7] }

/-- What the decoder reads from a word with these ports. -/
def reads (cw : Word) : Option Instr := (decode ⟨cw, ports⟩).toOption

theorem test_decode_crcInit : reads 0b00000001_10101011 = some (.crcInit 0xAB) := by decide
theorem test_decode_crcUpdate : reads 0b00000010_00110111 = some (.crcUpdate 0x37) := by decide
theorem test_decode_crcCompute : reads 0b00000011_00000000 = some (.crcCompute 0 [0xA5]) := by decide
theorem test_decode_crcVerify : reads 0b00000100_00000000 = some (.crcVerify 0 [0xA5] 0x0A84) := by decide
theorem test_decode_resolveRC : reads 0b00000101_00000001 = some (.resolveRC 3) := by decide
theorem test_decode_resolveRDI : reads 0b00000101_00000010 = some (.resolveRDI 3) := by decide
theorem test_decode_resolveRHR : reads 0b00000101_00000011 = some .resolveRHR := by decide
theorem test_decode_resolveRIR : reads 0b00000101_00000100 = some (.resolveRIR 3) := by decide
theorem test_decode_resolveWSC : reads 0b00000101_00000101 = some .resolveWSC := by decide
theorem test_decode_resolveWSR : reads 0b00000101_00000110 = some .resolveWSR := by decide
theorem test_decode_resolveRES : reads 0b00000101_00000111 = some .resolveRES := by decide
theorem test_decode_resolveDIAG : reads 0b00000101_00001000 = some (.resolveDIAG [0xA5]) := by decide
theorem test_decode_resolveWMC : reads 0b00000101_00001111 = some (.resolveWMC [true, false]) := by decide
theorem test_decode_resolveWMR : reads 0b00000101_00010000 = some (.resolveWMR [7]) := by decide
theorem test_decode_resolveInvalid : reads 0b00000101_00010001 = some (.resolveInvalid 0x11) := by decide
theorem test_decode_encodeRC : reads 0b00000110_00000001 = some (.encodeRC 0x11 0x006B 3) := by decide
theorem test_decode_encodeRDI : reads 0b00000110_00000010 = some (.encodeRDI 0x11 0x006B 3) := by decide
theorem test_decode_encodeRHR : reads 0b00000110_00000011 = some (.encodeRHR 0x11 0x006B) := by decide
theorem test_decode_encodeRIR : reads 0b00000110_00000100 = some (.encodeRIR 0x11 0x006B 3) := by decide
theorem test_decode_encodeWSC : reads 0b00000110_00000101 = some (.encodeWSC 0x11 0x006B true) := by decide
theorem test_decode_encodeWSR : reads 0b00000110_00000110 = some (.encodeWSR 0x11 0x006B 0x1234) := by decide
theorem test_decode_encodeRES : reads 0b00000110_00000111 = some (.encodeRES 0x11) := by decide
theorem test_decode_encodeDIAG : reads 0b00000110_00001000 = some (.encodeDIAG 0x11 [0xA5]) := by decide
theorem test_decode_encodeWMC : reads 0b00000110_00001111 = some (.encodeWMC 0x11 0x006B [true, false]) := by decide
theorem test_decode_encodeWMR : reads 0b00000110_00010000 = some (.encodeWMR 0x11 0x006B [7]) := by decide
theorem test_decode_encodeInvalid : reads 0b00000110_00001001 = some (.encodeInvalid 0x09) := by decide
theorem test_decode_decodeRC : reads 0b00000111_00000001 = some (.decodeRC [1, 7]) := by decide
theorem test_decode_decodeRDI : reads 0b00000111_00000010 = some (.decodeRDI [1, 7]) := by decide
theorem test_decode_decodeRHR : reads 0b00000111_00000011 = some (.decodeRHR [1, 7]) := by decide
theorem test_decode_decodeRIR : reads 0b00000111_00000100 = some (.decodeRIR [1, 7]) := by decide
theorem test_decode_decodeWSC : reads 0b00000111_00000101 = some (.decodeWSC [1, 7]) := by decide
theorem test_decode_decodeWSR : reads 0b00000111_00000110 = some (.decodeWSR [1, 7]) := by decide
theorem test_decode_decodeRES : reads 0b00000111_00000111 = some (.decodeRES [1, 7]) := by decide
theorem test_decode_decodeDIAG : reads 0b00000111_00001000 = some (.decodeDIAG [1, 7]) := by decide
theorem test_decode_decodeWMC : reads 0b00000111_00001111 = some (.decodeWMC [1, 7]) := by decide
theorem test_decode_decodeWMR : reads 0b00000111_00010000 = some (.decodeWMR [1, 7]) := by decide
theorem test_decode_decodeInvalid : reads 0b00000111_11111111 = some (.decodeInvalid 0xFF) := by decide
theorem test_decode_abortTransportError : reads 0b00001000_00000001 = some .abortTransportError := by decide
theorem test_decode_abortTimeout : reads 0b00001000_00000010 = some .abortTimeout := by decide
theorem test_decode_abortInvalidLength : reads 0b00001000_00000011 = some .abortInvalidResponseLength := by decide
theorem test_decode_abortIllegal : reads 0b00001000_00000100 = some (.abortIllegal 4) := by decide
theorem test_decode_reset : reads 0b00001001_11111111 = some (.reset 0xFF) := by decide
theorem test_decode_illegalOpc00 : reads 0b00000000_00000000 = some (.illegalOpc00 0) := by decide
theorem test_decode_illegalOpc0A0B : reads 0b0000101_000000000 = some (.illegalOpc0A0B 0) := by decide
theorem test_decode_illegalOpc0C0F : reads 0b000011_1111111111 = some (.illegalOpc0C0F 0x3FF) := by decide
theorem test_decode_illegalOpc101F : reads 0b0001_000000000001 = some (.illegalOpc101F 1) := by decide
theorem test_decode_illegalOpc203F : reads 0b001_1000000000000 = some (.illegalOpc203F 0x1000) := by decide
theorem test_decode_illegalOpc407F : reads 0b01_00000000000000 = some (.illegalOpc407F 0) := by decide
theorem test_decode_illegalOpc80FF : reads 0b1_111111111111111 = some (.illegalOpc80FF 0x7FFF) := by decide

/-- The whole table is laid out: 49 rows, each with its place. -/
theorem test_opcodeTable_has_49_rows : opcodeTable.length = 49 := by decide
/-- 30_encoding.md, opening paragraph: the more specific row wins. -/
theorem test_most_specific_row_wins : winningRows 0x0601 = [15] ∧ winningRows 0x0609 = [25] := by decide

/-! ### The CRC family (95_test_vectors.md section 2.1) -/

/-- CRC-13: ARG8 is ignored. -/
theorem test_crcInit : (go (.crcInit 0xAB) { State.reset with acc := 0x40BF }).acc = 0xFFFF := by decide +kernel
/-- CRC-3. -/
theorem test_crcUpdate : (go (.crcUpdate 0x01) State.reset).acc = 0x807E := by decide +kernel
/-- CRC-12: the step continues from ACC. -/
theorem test_crcUpdate_continues : (go (.crcUpdate 0x00) { State.reset with acc := 0x40BF }).acc = 0xB001 := by decide +kernel
/-- CRC-5. -/
theorem test_crcCompute : (go (.crcCompute 0 [1, 3, 0, 0, 0, 1]) { State.reset with acc := 7 }).acc = 0x0A84 := by decide +kernel
/-- CRC-6. -/
theorem test_crc_check_value : crc [0x31, 0x32, 0x33, 0x34, 0x35, 0x36, 0x37, 0x38, 0x39] = 0x4B37 := by decide +kernel
/-- CRC-8 and CRC-14: VFY set, ACC kept. -/
theorem test_crcVerify_match :
    endsWith (.crcVerify 0 [1, 3, 0, 0, 0, 1] 0x0A84) State.reset 0x0004 = true ∧
    (go (.crcVerify 0 [1, 3, 0, 0, 0, 1] 0x0A84) { State.reset with acc := 0x1234 }).acc = 0x1234 := by decide +kernel
/-- CRC-9: the byte-swapped CRC does not match, and that is no error. -/
theorem test_crcVerify_mismatch : endsWith (.crcVerify 0 [1, 3, 0, 0, 0, 1] 0x840A) State.reset 0x0000 = true := by decide +kernel

/-! ### RESOLVE_LEN (95_test_vectors.md section 2.3) -/

theorem test_resolveRC : resolves (.resolveRC 10) 7 0x0000 = true ∧ resolves (.resolveRC 0) 0 0x0600 = true := by decide +kernel
theorem test_resolveRC_largest :
    resolves (.resolveRC 2008) 256 0x0000 = true ∧ resolves (.resolveRC 2009) 0 0x0600 = true := by decide +kernel
theorem test_resolveRDI : resolves (.resolveRDI 0x25) 10 0x0000 = true := by decide +kernel
theorem test_resolveRHR : resolves .resolveRHR 7 0x0000 = true := by decide +kernel
theorem test_resolveRIR : resolves (.resolveRIR 2) 9 0x0000 = true ∧ resolves (.resolveRIR 125) 255 0x0000 = true := by decide +kernel
theorem test_resolveWSC : resolves .resolveWSC 8 0x0000 = true := by decide +kernel
theorem test_resolveWSR : resolves .resolveWSR 8 0x0000 = true := by decide +kernel
theorem test_resolveRES : resolves .resolveRES 5 0x0000 = true := by decide +kernel
theorem test_resolveDIAG : resolves (.resolveDIAG [1, 2, 3]) 9 0x0000 = true ∧ resolves (.resolveDIAG []) 6 0x0000 = true := by decide +kernel
theorem test_resolveWMC : resolves (.resolveWMC (List.replicate 17 true)) 8 0x0000 = true := by decide +kernel
theorem test_resolveWMR : resolves (.resolveWMR [1, 2, 3]) 8 0x0000 = true := by decide +kernel
theorem test_resolveInvalid : resolves (.resolveInvalid 0x11) 0 0x0600 = true := by decide +kernel
/-- LEN-13: a transaction in progress is not disturbed. -/
theorem test_resolve_in_a_transaction : endsWith (.resolveRC 10) builtRHR 0x0001 = true := by decide +kernel

/-! ### ENCODE (95_test_vectors.md section 2.2) -/

/-- ENC-RC-1. -/
theorem test_encodeRC : sends (.encodeRC 1 0 10) [0x01, 0x01, 0x00, 0x00, 0x00, 0x0A, 0xBC, 0x0D] 10 7 = true := by decide +kernel
/-- ENC-RC-4, ENC-RC-5, ENC-RC-6. -/
theorem test_encodeRC_limits :
    sends (.encodeRC 1 0 2008) [0x01, 0x01, 0x00, 0x00, 0x07, 0xD8, 0x3E, 0x60] 2008 256 = true ∧
    refuses (.encodeRC 1 0 2009) State.reset = true ∧ refuses (.encodeRC 1 0 0) builtRC = true := by decide +kernel
/-- ENC-RDI-1. -/
theorem test_encodeRDI :
    sends (.encodeRDI 1 0x0013 0x0025) [0x01, 0x02, 0x00, 0x13, 0x00, 0x25, 0x48, 0x14] 37 10 = true := by decide +kernel
/-- ENC-RHR-2. -/
theorem test_encodeRHR : sends (.encodeRHR 0x11 0x006B) [0x11, 0x03, 0x00, 0x6B, 0x00, 0x01, 0xF7, 0x46] 1 7 = true := by decide +kernel
/-- ENC-RIR-2, ENC-RIR-3. -/
theorem test_encodeRIR :
    sends (.encodeRIR 1 0 125) [0x01, 0x04, 0x00, 0x00, 0x00, 0x7D, 0x30, 0x2B] 125 255 = true ∧
    refuses (.encodeRIR 1 0 126) State.reset = true := by decide +kernel
/-- ENC-WSC-1. -/
theorem test_encodeWSC_on :
    sends (.encodeWSC 1 0x00AC true) [0x01, 0x05, 0x00, 0xAC, 0xFF, 0x00, 0x4C, 0x1B] 1 8 = true := by decide +kernel
/-- ENC-WSC-2. -/
theorem test_encodeWSC_off :
    sends (.encodeWSC 1 0x00AC false) [0x01, 0x05, 0x00, 0xAC, 0x00, 0x00, 0x0D, 0xEB] 1 8 = true := by decide +kernel
/-- ENC-WSR-1. -/
theorem test_encodeWSR : sends (.encodeWSR 1 1 0x1234) [0x01, 0x06, 0x00, 0x01, 0x12, 0x34, 0xD5, 0x7D] 1 8 = true := by decide +kernel
/-- ENC-WMC-2: ten coils in two bytes, padding zero. -/
theorem test_encodeWMC :
    sends (.encodeWMC 1 0x0013 [true, false, true, true, false, false, true, true, true, false])
      [0x01, 0x0F, 0x00, 0x13, 0x00, 0x0A, 0x02, 0xCD, 0x01, 0x72, 0xCB] 10 8 = true := by decide +kernel
/-- ENC-WMC-3 and ENC-WMC-7. -/
theorem test_encodeWMC_no_padding :
    sends (.encodeWMC 1 0 (List.replicate 8 true)) [0x01, 0x0F, 0x00, 0x00, 0x00, 0x08, 0x01, 0xFF, 0xBE, 0xD5] 8 8 = true ∧
    refuses (.encodeWMC 1 0 []) State.reset = true := by decide +kernel
/-- ENC-WMR-1. -/
theorem test_encodeWMR :
    sends (.encodeWMR 1 1 [0x000A, 0x0102])
      [0x01, 0x10, 0x00, 0x01, 0x00, 0x02, 0x04, 0x00, 0x0A, 0x01, 0x02, 0x92, 0x30] 2 8 = true := by decide +kernel
/-- ENC-WMR-4 and ENC-WMR-5. -/
theorem test_encodeWMR_limits :
    refuses (.encodeWMR 1 0 (List.replicate 124 0)) State.reset = true ∧ refuses (.encodeWMR 1 0 []) State.reset = true := by decide +kernel
/-- ENC-RES-1. -/
theorem test_encodeRES : sends (.encodeRES 1) [0x01, 0x07, 0x41, 0xE2] 0 5 = true := by decide +kernel
/-- ENC-DIAG-1. -/
theorem test_encodeDIAG :
    sends (.encodeDIAG 1 [0xA5, 0x37]) [0x01, 0x08, 0x00, 0x00, 0xA5, 0x37, 0xDA, 0x8D] 2 8 = true := by decide +kernel
/-- ENC-DIAG-2 and ENC-DIAG-4. -/
theorem test_encodeDIAG_limits :
    sends (.encodeDIAG 1 []) [0x01, 0x08, 0x00, 0x00, 0x80, 0x1A] 0 6 = true ∧
    refuses (.encodeDIAG 1 (List.replicate 251 0)) State.reset = true := by decide +kernel
/-- ENC-BAD-1. -/
theorem test_encodeInvalid : refuses (.encodeInvalid 0x09) builtRC = true := by decide +kernel

/-! ### DECODE (95_test_vectors.md section 2.4) -/

/-- DEC-RC-1. -/
theorem test_decodeRC :
    gives (.decodeRC [0x01, 0x01, 0x02, 0x0D, 0x03, 0xFD, 0x6D]) builtRC
      (.bits [true, false, true, true, false, false, false, false, true, true]) 0x0002 = true := by decide +kernel
/-- DEC-RC-4: the CRC bytes in the wrong order. -/
theorem test_decodeRC_crc_order : gives (.decodeRC [0x01, 0x01, 0x02, 0x0D, 0x03, 0x6D, 0xFD]) builtRC .none 0x0443 = true := by decide +kernel
/-- The example of 43_response_decoder.md rule R173. -/
theorem test_decodeRDI :
    gives (.decodeRDI [0x01, 0x02, 0x01, 0x05, 0x61, 0x8B]) builtRDI (.bits [true, false, true]) 0x0002 = true := by decide +kernel
/-- The example of 43_response_decoder.md rule R175. -/
theorem test_decodeRHR :
    gives (.decodeRHR [0x01, 0x03, 0x02, 0x12, 0x34, 0xB5, 0x33]) builtRHR (.reg 0x1234) 0x0002 = true := by decide +kernel
/-- DEC-SEQ-2: another function's DECODE is a sequence error. -/
theorem test_decodeRHR_sequence :
    endsWith (.decodeRHR [0x01, 0x03, 0x02, 0x12, 0x34, 0xB5, 0x33]) builtRC 0x0701 = true := by decide +kernel
/-- The example of 43_response_decoder.md rule R174. -/
theorem test_decodeRIR :
    gives (.decodeRIR [0x01, 0x04, 0x04, 0x00, 0x0A, 0xFF, 0xFE, 0x1B, 0xF6]) builtRIR (.regs [0x000A, 0xFFFE]) 0x0002 = true := by decide +kernel
/-- The example of 43_response_decoder.md rule R176. -/
theorem test_decodeWSC :
    gives (.decodeWSC [0x01, 0x05, 0x00, 0xAC, 0xFF, 0x00, 0x4C, 0x1B]) builtWSC .writeOk 0x0002 = true := by decide +kernel
/-- The example of 43_response_decoder.md rule R177. -/
theorem test_decodeWSR :
    gives (.decodeWSR [0x01, 0x06, 0x00, 0x01, 0x12, 0x34, 0xD5, 0x7D]) builtWSR .writeOk 0x0002 = true := by decide +kernel
/-- The example of rule R177: a good CRC, another value. -/
theorem test_decodeWSR_wrong_echo :
    gives (.decodeWSR [0x01, 0x06, 0x00, 0x01, 0x12, 0x35, 0x14, 0xBD]) builtWSR .none 0x0553 = true := by decide +kernel
/-- The example of 43_response_decoder.md rule R178. -/
theorem test_decodeWMC :
    gives (.decodeWMC [0x01, 0x0F, 0x00, 0x00, 0x00, 0x03, 0x15, 0xCA]) builtWMC .writeOk 0x0002 = true := by decide +kernel
/-- The example of rule R178: a good CRC, another count. -/
theorem test_decodeWMC_wrong_echo :
    gives (.decodeWMC [0x01, 0x0F, 0x00, 0x00, 0x00, 0x04, 0x54, 0x08]) builtWMC .none 0x0553 = true := by decide +kernel
/-- The example of 43_response_decoder.md rule R179. -/
theorem test_decodeWMR :
    gives (.decodeWMR [0x01, 0x10, 0x00, 0x01, 0x00, 0x02, 0x10, 0x08]) builtWMR .writeOk 0x0002 = true := by decide +kernel
/-- The example of 43_response_decoder.md rule R180. -/
theorem test_decodeRES : gives (.decodeRES [0x01, 0x07, 0x6D, 0xE3, 0xDD]) builtRES (.excStatus 0x6D) 0x0002 = true := by decide +kernel
/-- DEC-RES-3: an exception response decodes as data. -/
theorem test_decodeRES_exception_response :
    gives (.decodeRES [0x01, 0x87, 0x01, 0x82, 0x30]) builtRES (.excStatus 0x01) 0x0002 = true := by decide +kernel
/-- DEC-DIAG-2: the data is not compared. -/
theorem test_decodeDIAG :
    gives (.decodeDIAG [0x01, 0x08, 0x00, 0x00, 0x00, 0x00, 0xE0, 0x0B]) builtDIAG (.echo [0x00, 0x00]) 0x0002 = true := by decide +kernel
/-- DEC-DIAG-4: seven bytes are too short. -/
theorem test_decodeDIAG_short : gives (.decodeDIAG [0x01, 0x08, 0x00, 0x00, 0xA5, 0x37, 0xDA]) builtDIAG .none 0x0333 = true := by decide +kernel
/-- DEC-SEQ-4. -/
theorem test_decodeInvalid : endsWith (.decodeInvalid 0x09) builtRC 0x0701 = true := by decide +kernel

/-! ### Control (95_test_vectors.md section 2.5) -/

/-- CTL-2 and CTL-4. -/
theorem test_abortTransportError :
    gives .abortTransportError builtRC .none 0x0013 = true ∧ endsWith .abortTransportError State.reset 0x0700 = true := by decide +kernel
/-- CTL-1. -/
theorem test_abortTimeout : gives .abortTimeout builtRC .none 0x0023 = true := by decide +kernel
/-- CTL-3: DECODED becomes FAILED, RESULT becomes NONE. -/
theorem test_abortInvalidResponseLength :
    gives .abortInvalidResponseLength (go (.decodeRC [0x01, 0x01, 0x02, 0x0D, 0x03, 0xFD, 0x6D]) builtRC) .none 0x0033 = true := by decide +kernel
/-- CTL-5. -/
theorem test_abortIllegal : endsWith (.abortIllegal 0) builtRC 0x0801 = true := by decide +kernel
/-- CTL-7, the outputs. -/
theorem test_reset : outputs (go (.reset 0xFF) (go (.crcUpdate 0x37) builtRC)) = outputs State.reset := by decide +kernel
/-- CTL-6. -/
theorem test_illegalOpc00 : endsWith (.illegalOpc00 0) State.reset 0x0800 = true := by decide +kernel
/-- Program P4, step 5: nothing but CST changes. -/
theorem test_illegalOpc0A0B : gives (.illegalOpc0A0B 0) (go .abortTimeout builtDIAG) .none 0x0823 = true := by decide +kernel
theorem test_illegalOpc0C0F : endsWith (.illegalOpc0C0F 1) builtRC 0x0801 = true := by decide +kernel
theorem test_illegalOpc101F : endsWith (.illegalOpc101F 1) builtRC 0x0801 = true := by decide +kernel
theorem test_illegalOpc203F : endsWith (.illegalOpc203F 1) builtRC 0x0801 = true := by decide +kernel
theorem test_illegalOpc407F : endsWith (.illegalOpc407F 1) builtRC 0x0801 = true := by decide +kernel
theorem test_illegalOpc80FF : endsWith (.illegalOpc80FF 0x7FFF) builtRC 0x0801 = true := by decide +kernel

/-! ### One step -/

/-- The first command after reset is the presented one. -/
theorem test_withFetchWord_runs_it : step (State.reset.withFetchWord 16 0x0201) = exec (.crcUpdate 0x01) State.reset := by rfl
/-- A BITS port of 65536 elements is no command (30_encoding.md rule R63). -/
theorem test_step_refuses_long_bits :
    step { State.reset with commands := [⟨0x060F, { Ports.idle with bits := longBits }⟩] } =
      .refused (.malformedCommand .bitsTooLong) := by
  refine step_malformed rfl (decode_eq_error.mpr ?_)
  show portError (.encodeWMC 0 0 longBits) = some .bitsTooLong
  simp [portError, portMax, longBits_length]

/-! ### Witnesses: for every statement with hypotheses, values that meet all of them, at the ends of each clause's range -/

/-- A good response to ENC-RC-1. -/
def goodRC : List Byte := [0x01, 0x01, 0x02, 0x0D, 0x03, 0xFD, 0x6D]

/-- The state after DEC-RC-1, in PHASE DECODED. -/
def decodedRC : State := go (.decodeRC goodRC) builtRC

/-- The state after ENC-BAD-1, in PHASE FAILED with CTX.valid = 0. -/
def refusedRC : State := go (.encodeRC 1 0 0) State.reset

/-- A command answers the state `go` names. -/
def runs (i : Instr) (s : State) : Bool := (issue i s).isSome

theorem runs_next {i : Instr} {s : State} (h : runs i s = true) : exec i s = .next (go i s) := by
  unfold runs go issue at *
  cases he : exec i s <;> simp_all

theorem witness_CrcChangesWithEverySingleBit :
    0 < ([0x00] : List Byte).length ∧ 7 < 8 ∧ crc [0x80] = 0xE0BE ∧ 8 < (List.replicate 9 (0x00 : Byte)).length := by
  decide +kernel

theorem witness_CrcVerifyAcceptsComputedCrc :
    exec (.crcCompute 0 [1, 3, 0, 0, 0, 1]) State.reset = .next (go (.crcCompute 0 [1, 3, 0, 0, 0, 1]) State.reset) ∧
    exec (.crcCompute 0 []) State.reset = .next (go (.crcCompute 0 []) State.reset) :=
  ⟨runs_next (by decide +kernel), runs_next (by decide +kernel)⟩

theorem witness_CrcPseudoEqualsCompute :
    ({ State.reset with commands := crcPseudo [1, 3] ++ [⟨0x0900, ports⟩] } : State).commands =
      crcPseudo [1, 3] ++ [⟨0x0900, ports⟩] ∧
    ({ State.reset with commands := crcPseudo [] } : State).commands = crcPseudo [] ++ [] := ⟨rfl, rfl⟩

theorem witness_ResolveLenAnswersWhatEncodeLatches :
    exec (readResolve 0x01 { ports with count := 2008 }) State.reset =
      .next (go (readResolve 0x01 { ports with count := 2008 }) State.reset) ∧
    exec (readEncode 0x01 { ports with count := 2008 }) State.reset =
      .next (go (readEncode 0x01 { ports with count := 2008 }) State.reset) ∧
    (go (readResolve 0x01 { ports with count := 2008 }) State.reset).status.cst = .ok :=
  ⟨runs_next (by decide +kernel), runs_next (by decide +kernel), by decide +kernel⟩

/-- The ports hypothesis of ResolveLenGivesResponseLength, EncodeBuildsMultipleCoils and EncodeBuildsMultipleRegisters, at the
ends of the port types, and bytes at the ends of the gaps between the function codes. -/
theorem witness_ports_within_their_types :
    ports.wf = true ∧ Ports.idle.wf = true ∧
    ({ Ports.idle with bits := longBits.tail, words := longWords.tail } : Ports).wf = true ∧
    (0x00 : Byte).toNat ∉ [1, 2, 3, 4, 5, 6, 7, 8, 15, 16] ∧ (0x09 : Byte).toNat ∉ [1, 2, 3, 4, 5, 6, 7, 8, 15, 16] ∧
    (0x0E : Byte).toNat ∉ [1, 2, 3, 4, 5, 6, 7, 8, 15, 16] ∧ (0x11 : Byte).toNat ∉ [1, 2, 3, 4, 5, 6, 7, 8, 15, 16] ∧
    (0xFF : Byte).toNat ∉ [1, 2, 3, 4, 5, 6, 7, 8, 15, 16] := by
  refine ⟨by decide, by decide, ?_, by decide⟩
  simp [Ports.wf, portMax, longBits_length, longWords_length]

/-- The limits of each clause with MAX_ADU = 256, on both sides. -/
theorem witness_LargestAcceptedCounts :
    State.reset.config.maxAdu = 256 ∧
    endsWith (.encodeRC 1 0 2008) State.reset 0x0001 = true ∧ endsWith (.encodeRC 1 0 2009) State.reset 0x0663 = true ∧
    endsWith (.encodeRDI 1 0 2008) State.reset 0x0001 = true ∧ endsWith (.encodeRDI 1 0 2009) State.reset 0x0663 = true ∧
    endsWith (.encodeRIR 1 0 125) State.reset 0x0001 = true ∧ endsWith (.encodeRIR 1 0 126) State.reset 0x0663 = true ∧
    endsWith (.encodeWMC 1 0 (List.replicate 1976 true)) State.reset 0x0001 = true ∧
    endsWith (.encodeWMC 1 0 (List.replicate 1977 true)) State.reset 0x0663 = true ∧
    endsWith (.encodeWMR 1 0 (List.replicate 123 0)) State.reset 0x0001 = true ∧
    endsWith (.encodeWMR 1 0 (List.replicate 124 0)) State.reset 0x0663 = true ∧
    endsWith (.encodeDIAG 1 (List.replicate 250 0)) State.reset 0x0001 = true ∧
    endsWith (.encodeDIAG 1 (List.replicate 251 0)) State.reset 0x0663 = true := by decide +kernel

theorem witness_DecodeExtractsBits :
    (builtRC.ctx.valid = true ∧ builtRC.ctx.fc = 0x01 ∧ Requires builtRC 0x01 (5 + (builtRC.ctx.count.toNat + 7) / 8)) ∧
    (builtRDI.ctx.valid = true ∧ builtRDI.ctx.fc = 0x02 ∧ Requires builtRDI 0x02 (5 + (builtRDI.ctx.count.toNat + 7) / 8)) :=
  ⟨⟨by decide +kernel, by decide +kernel, fun _ _ => by decide +kernel⟩,
   ⟨by decide +kernel, by decide +kernel, fun _ _ => by decide +kernel⟩⟩

theorem witness_DecodeExtractsRegisters :
    (builtRIR.ctx.valid = true ∧ builtRIR.ctx.fc = 0x04 ∧ Requires builtRIR 0x04 (5 + 2 * builtRIR.ctx.count.toNat)) ∧
    (builtRHR.ctx.valid = true ∧ builtRHR.ctx.fc = 0x03 ∧ Requires builtRHR 0x03 7) :=
  ⟨⟨by decide +kernel, by decide +kernel, fun _ _ => by decide +kernel⟩,
   ⟨by decide +kernel, by decide +kernel, fun _ _ => by decide +kernel⟩⟩

theorem witness_DecodeConfirmsWrites :
    (builtWSC.ctx.valid = true ∧ builtWSC.ctx.fc = 0x05 ∧ RequiresEcho builtWSC 0x05) ∧
    (builtWSR.ctx.valid = true ∧ builtWSR.ctx.fc = 0x06 ∧ RequiresEcho builtWSR 0x06) ∧
    (builtWMC.ctx.valid = true ∧ builtWMC.ctx.fc = 0x0F ∧ RequiresEcho builtWMC 0x0F) ∧
    (builtWMR.ctx.valid = true ∧ builtWMR.ctx.fc = 0x10 ∧ RequiresEcho builtWMR 0x10) :=
  ⟨⟨by decide +kernel, by decide +kernel, fun _ _ => by decide +kernel⟩,
   ⟨by decide +kernel, by decide +kernel, fun _ _ => by decide +kernel⟩,
   ⟨by decide +kernel, by decide +kernel, fun _ _ => by decide +kernel⟩,
   ⟨by decide +kernel, by decide +kernel, fun _ _ => by decide +kernel⟩⟩

theorem witness_DecodeExtractsStatusAndEcho :
    (builtRES.ctx.valid = true ∧ builtRES.ctx.fc = 0x07 ∧ Requires builtRES 0x07 5) ∧
    (builtDIAG.ctx.valid = true ∧ builtDIAG.ctx.fc = 0x08 ∧ Requires builtDIAG 0x08 (6 + builtDIAG.ctx.count.toNat)) :=
  ⟨⟨by decide +kernel, by decide +kernel, fun _ _ => by decide +kernel⟩,
   ⟨by decide +kernel, by decide +kernel, fun _ _ => by decide +kernel⟩⟩

theorem witness_DecodeTwiceIsDecodeOnce :
    isDecode (.decodeRC goodRC) = true ∧ exec (.decodeRC goodRC) builtRC = .next decodedRC :=
  ⟨rfl, runs_next (by decide +kernel)⟩

/-- Also with a CRC_VERIFY and an ABORT in between. -/
theorem witness_DecodeIsRepeatable :
    isDecode (.decodeRC goodRC) = true ∧ exec (.decodeRC goodRC) builtRC = .next decodedRC ∧
    decodedRC.status.cst ≠ .sequenceError ∧
    (∀ j ∈ [Instr.crcVerify 0 [] 0xFFFF, .abortTimeout], isEncode j = false ∧ isReset j = false) ∧
    execAll [Instr.crcVerify 0 [] 0xFFFF, .abortTimeout] decodedRC =
      some (go .abortTimeout (go (.crcVerify 0 [] 0xFFFF) decodedRC)) ∧
    exec (.decodeRC goodRC) (go .abortTimeout (go (.crcVerify 0 [] 0xFFFF) decodedRC)) =
      .next (go (.decodeRC goodRC) (go .abortTimeout (go (.crcVerify 0 [] 0xFFFF) decodedRC))) :=
  ⟨rfl, runs_next (by decide +kernel), by decide +kernel, by decide +kernel, by decide +kernel,
    runs_next (by decide +kernel)⟩

/-- Each clause: success, a transaction error, a sequence error. -/
theorem witness_NoPartialResult :
    (exec (.decodeRC goodRC) builtRC = .next decodedRC ∧ decodedRC.status.cst = .ok) ∧
    (exec (.decodeRC []) builtRC = .next (go (.decodeRC []) builtRC) ∧
      (go (.decodeRC []) builtRC).status.cst = .invalidResponseLength) ∧
    (exec (.decodeRDI goodRC) builtRC = .next (go (.decodeRDI goodRC) builtRC) ∧
      (go (.decodeRDI goodRC) builtRC).status.cst = .sequenceError) :=
  ⟨⟨runs_next (by decide +kernel), by decide +kernel⟩, ⟨runs_next (by decide +kernel), by decide +kernel⟩,
   ⟨runs_next (by decide +kernel), by decide +kernel⟩⟩

/-- Ten coils in two bytes, and the smallest request: one coil. -/
theorem witness_ReadCoilsReturnsTheSlavesBits :
    (([true, false, true, true, false, false, false, false, true, true] : List Bool).length = (10 : Word).toNat ∧
      1 ≤ (10 : Word).toNat ∧ 5 + ((10 : Word).toNat + 7) / 8 ≤ State.reset.config.maxAdu ∧
      ([0x0D, 0x03] : List Byte).length = ((10 : Word).toNat + 7) / 8 ∧
      (∀ i, i < (10 : Word).toNat → (([0x0D, 0x03] : List Byte).getD (i / 8) 0).getLsbD (i % 8) =
        [true, false, true, true, false, false, false, false, true, true].getD i false) ∧
      exec (.encodeRC 1 0 10) State.reset = .next builtRC ∧
      exec (.encodeRDI 1 0 10) State.reset = .next (go (.encodeRDI 1 0 10) State.reset)) ∧
    (([true] : List Bool).length = (1 : Word).toNat ∧
      (∀ i, i < (1 : Word).toNat → (([0xFF] : List Byte).getD (i / 8) 0).getLsbD (i % 8) = [true].getD i false)) :=
  ⟨⟨by decide +kernel, by decide +kernel, by decide +kernel, by decide +kernel, by decide +kernel,
    runs_next (by decide +kernel), runs_next (by decide +kernel)⟩, by decide +kernel, by decide +kernel⟩

theorem witness_ReadInputRegistersReturnsTheSlavesWords :
    ([0x000A, 0xFFFE] : List Word).length = (2 : Word).toNat ∧ 1 ≤ (2 : Word).toNat ∧
    5 + 2 * (2 : Word).toNat ≤ State.reset.config.maxAdu ∧ exec (.encodeRIR 1 8 2) State.reset = .next builtRIR :=
  ⟨by decide, by decide, by decide, runs_next (by decide +kernel)⟩

/-- The right echo and a wrong one, for each of the four write functions. -/
theorem witness_WriteResponsesAreJudgedByTheirEcho :
    (exec (encodeOf .wsc { ports with unit := 1, addr := 0x00AC, state := true }) State.reset = .next builtWSC ∧
      builtWSC.status.phase = .built ∧ ([0x00, 0xAC, 0xFF, 0x00] : List Byte) = (builtWSC.txbuf.drop 2).take 4 ∧
      ([0x00, 0xAC, 0x00, 0x00] : List Byte) ≠ (builtWSC.txbuf.drop 2).take 4) ∧
    (exec (encodeOf .wsr { ports with unit := 1, addr := 1, value := 0x1234 }) State.reset = .next builtWSR ∧
      builtWSR.status.phase = .built ∧ ([0x00, 0x01, 0x12, 0x34] : List Byte) = (builtWSR.txbuf.drop 2).take 4 ∧
      ([0x00, 0x01, 0x12, 0x35] : List Byte) ≠ (builtWSR.txbuf.drop 2).take 4) ∧
    (exec (encodeOf .wmc { ports with unit := 1, addr := 0, bits := [true, false, true] }) State.reset = .next builtWMC ∧
      builtWMC.status.phase = .built ∧ ([0x00, 0x00, 0x00, 0x03] : List Byte) = (builtWMC.txbuf.drop 2).take 4 ∧
      ([0x00, 0x00, 0x00, 0x04] : List Byte) ≠ (builtWMC.txbuf.drop 2).take 4) ∧
    (exec (encodeOf .wmr { ports with unit := 1, addr := 1, words := [0x000A, 0x0102] }) State.reset = .next builtWMR ∧
      builtWMR.status.phase = .built ∧ ([0x00, 0x01, 0x00, 0x02] : List Byte) = (builtWMR.txbuf.drop 2).take 4 ∧
      ([0x00, 0x02, 0x00, 0x02] : List Byte) ≠ (builtWMR.txbuf.drop 2).take 4) :=
  ⟨⟨runs_next (by decide +kernel), by decide +kernel, by decide +kernel, by decide +kernel⟩,
   ⟨runs_next (by decide +kernel), by decide +kernel, by decide +kernel, by decide +kernel⟩,
   ⟨runs_next (by decide +kernel), by decide +kernel, by decide +kernel, by decide +kernel⟩,
   ⟨runs_next (by decide +kernel), by decide +kernel, by decide +kernel, by decide +kernel⟩⟩

/-- Each of the three clauses, at the ends of its range: OPC 0x00, OPC 0x0A and 0xFF, ABORT codes 0, 4 and 0xFF. -/
theorem witness_UnassignedWordsAreIllegalCommands :
    ({ State.reset with commands := [⟨0x00FF, ports⟩] } : State).commands = ⟨0x00FF, ports⟩ :: [] ∧
    (0x00FF : Word).toNat / 256 = 0x00 ∧ 0x0A ≤ (0x0A00 : Word).toNat / 256 ∧ 0x0A ≤ (0xFFFF : Word).toNat / 256 ∧
    ((0x0800 : Word).toNat / 256 = 0x08 ∧ (0x0800 : Word).toNat % 256 ∉ [1, 2, 3]) ∧
    ((0x0804 : Word).toNat / 256 = 0x08 ∧ (0x0804 : Word).toNat % 256 ∉ [1, 2, 3]) ∧
    ((0x08FF : Word).toNat / 256 = 0x08 ∧ (0x08FF : Word).toNat % 256 ∉ [1, 2, 3]) := ⟨rfl, by decide⟩

/-- One command of each class, ending in a next state: the hypotheses of the statements over all commands
(PhaseFollowsTheTransitionTable, EveryCommandEndsWithAPossibleCode, OnlyItsWritersChangeARegister). -/
theorem witness_statements_over_all_commands :
    (isEncode (.encodeRC 1 0 10) = true ∧ exec (.encodeRC 1 0 10) State.reset = .next builtRC) ∧
    (isDecode (.decodeRC goodRC) = true ∧ exec (.decodeRC goodRC) builtRC = .next decodedRC) ∧
    (isAbort .abortTimeout = true ∧ exec .abortTimeout builtRC = .next (go .abortTimeout builtRC)) ∧
    (isResolve .resolveRHR = true ∧ exec .resolveRHR builtRC = .next (go .resolveRHR builtRC)) ∧
    (isReset (.reset 0) = true ∧ exec (.reset 0) builtRC = .next (go (.reset 0) builtRC)) ∧
    (isIllegal (.illegalOpc00 0) = true ∧ exec (.illegalOpc00 0) builtRC = .next (go (.illegalOpc00 0) builtRC)) ∧
    (isEncode (.crcInit 0) = false ∧ isDecode (.crcInit 0) = false ∧ isAbort (.crcInit 0) = false ∧
      isReset (.crcInit 0) = false ∧ isResolve (.crcInit 0) = false ∧ isIllegal (.crcInit 0) = false ∧
      isVerify (.crcInit 0) = false ∧ exec (.crcInit 0) builtRC = .next (go (.crcInit 0) builtRC)) ∧
    (writesAcc (.crcVerify 0 [] 0) = false ∧ exec (.crcVerify 0 [] 0) builtRC = .next (go (.crcVerify 0 [] 0) builtRC)) :=
  ⟨⟨rfl, runs_next (by decide +kernel)⟩, ⟨rfl, runs_next (by decide +kernel)⟩, ⟨rfl, runs_next (by decide +kernel)⟩,
   ⟨rfl, runs_next (by decide +kernel)⟩, ⟨rfl, runs_next (by decide +kernel)⟩, ⟨rfl, runs_next (by decide +kernel)⟩,
   ⟨rfl, rfl, rfl, rfl, rfl, rfl, rfl, runs_next (by decide +kernel)⟩, ⟨rfl, runs_next (by decide +kernel)⟩⟩

/-- A refused ENCODE, a DECODE with a wrong length, an ABORT. -/
theorem witness_TransactionErrorsArePrecise :
    (isEncode (.encodeRC 1 0 0) = true ∧ exec (.encodeRC 1 0 0) State.reset = .next refusedRC ∧ refusedRC.status.cst ≠ .ok) ∧
    (isDecode (.decodeRC []) = true ∧ exec (.decodeRC []) builtRC = .next (go (.decodeRC []) builtRC) ∧
      (go (.decodeRC []) builtRC).status.cst ≠ .ok ∧ (go (.decodeRC []) builtRC).status.cst ≠ .sequenceError) ∧
    (isAbort .abortTimeout = true ∧ exec .abortTimeout builtRC = .next (go .abortTimeout builtRC) ∧
      (go .abortTimeout builtRC).status.cst = .ok) :=
  ⟨⟨rfl, runs_next (by decide +kernel), by decide +kernel⟩,
   ⟨rfl, runs_next (by decide +kernel), by decide +kernel, by decide +kernel⟩,
   ⟨rfl, runs_next (by decide +kernel), by decide +kernel⟩⟩

/-- A sequence error, an illegal command, a refused RESOLVE_LEN. -/
theorem witness_CommandErrorsDisturbNoTransaction :
    (exec .abortTimeout State.reset = .next (go .abortTimeout State.reset) ∧
      (go .abortTimeout State.reset).status.cst = .sequenceError) ∧
    (exec (.illegalOpc00 0) builtRC = .next (go (.illegalOpc00 0) builtRC) ∧
      (go (.illegalOpc00 0) builtRC).status.cst = .illegalCommand) ∧
    (exec (.resolveRC 0) builtRC = .next (go (.resolveRC 0) builtRC) ∧
      (go (.resolveRC 0) builtRC).status.cst = .invalidRequest ∧ isResolve (.resolveRC 0) = true) :=
  ⟨⟨runs_next (by decide +kernel), by decide +kernel⟩, ⟨runs_next (by decide +kernel), by decide +kernel⟩,
   ⟨runs_next (by decide +kernel), by decide +kernel, rfl⟩⟩

theorem witness_VfyAndAccAreNotReadByOthers :
    isUpdate (.crcCompute 0 []) = false ∧ isUpdate (.decodeRC goodRC) = false ∧ isUpdate (.reset 0) = false := by decide

/-- The longest BITS port the encoding admits, and the boundary bytes of the overlapping rows. -/
theorem witness_DecodeInvertsEncode :
    (Instr.encodeWMC 1 0 (longBits.tail)).wf = true ∧ (Instr.resolveWMR (longWords.tail)).wf = true ∧
    (Instr.encodeInvalid 0x0E).wf = true ∧ (Instr.decodeInvalid 0x11).wf = true ∧ (Instr.resolveInvalid 0).wf = true ∧
    (Instr.abortIllegal 4).wf = true ∧ (Instr.illegalOpc80FF 0).wf = true := by
  refine ⟨?_, ?_, by decide⟩
  · simp [Instr.wf, portMax, longBits_length]
  · simp [Instr.wf, portMax, longWords_length]

theorem witness_DecodingLosesNoBitOfTheWord :
    decode ⟨0x0437, ports⟩ = .ok (.crcVerify 0x37 [0xA5] 0x0A84) ∧ decode ⟨0xFFFF, ports⟩ = .ok (.illegalOpc80FF 0x7FFF) :=
  ⟨rfl, rfl⟩

/-- CRC_INIT reads no port at all, so its word meets every clause's hypothesis. -/
theorem witness_PortsAreReadOnlyWhereNamed :
    (0x0100 : Word).toNat / 256 ≠ 6 ∧ (0x0100 : Word).toNat / 256 ≠ 3 ∧ (0x0100 : Word).toNat / 256 ≠ 4 ∧
    (0x0100 : Word).toNat / 256 ≠ 7 ∧ (0x0100 : Word).toNat ≠ 0x0605 ∧ (0x0100 : Word).toNat ≠ 0x0606 ∧
    (0x0100 : Word).toNat ∉ [0x0601, 0x0602, 0x0603, 0x0604, 0x0605, 0x0606, 0x060F, 0x0610] ∧
    (0x0100 : Word).toNat ∉ [0x0501, 0x0502, 0x0504, 0x0601, 0x0602, 0x0604] ∧
    (0x0100 : Word).toNat ∉ [0x050F, 0x060F] ∧ (0x0100 : Word).toNat ∉ [0x0510, 0x0610] ∧
    (0x0100 : Word).toNat ∉ [0x0508, 0x0608] := by decide

/-- Each clause: nothing presented, a command, a malformed one, a table word. -/
theorem witness_StepRunsTheDecodedCommand :
    State.reset.commands = [] ∧ decode ⟨0x0900, ports⟩ = .ok (.reset 0) ∧
    decode ⟨0x050F, { ports with bits := longBits }⟩ = .error .bitsTooLong ∧
    decodeTableWord 16 0x0601 = some (.encodeRC 0 0 0) ∧ decodeTableWord 8 0x0601 = some (.illegalOpc00 1) := by
  refine ⟨rfl, rfl, decode_eq_error.mpr ?_, by decide, by decide⟩
  show portError (.resolveWMC longBits) = some .bitsTooLong
  simp [portError, portMax, longBits_length]

theorem witness_EveryCommandWordDecodes :
    ports.wf = true ∧ ({ Ports.idle with bits := longBits.tail, words := longWords.tail } : Ports).wf = true := by
  refine ⟨by decide, ?_⟩
  simp [Ports.wf, portMax, longBits_length, longWords_length]

/-- The invariant in a state with a built request, and in one with a refused request. -/
theorem builtRES_inv : builtRES.Inv where
  txbufBound := by decide +kernel
  context := fun _ => ⟨.res, ⟨by decide +kernel, by decide +kernel, by decide +kernel, by decide +kernel, by decide +kernel,
    by decide +kernel, by decide +kernel⟩⟩
  noContext := by decide +kernel
  errFailed := by decide +kernel
  errCode := by decide +kernel
  phaseContext := by decide +kernel
  resultNone := by decide +kernel
  resultValue := fun h => absurd h (by decide +kernel)

theorem refusedRC_inv : refusedRC.Inv where
  txbufBound := by decide +kernel
  context := fun h => absurd h (by decide +kernel)
  noContext := by decide +kernel
  errFailed := by decide +kernel
  errCode := by decide +kernel
  phaseContext := by decide +kernel
  resultNone := by decide +kernel
  resultValue := fun h => absurd h (by decide +kernel)

theorem witness_StepKeepsTheInvariant :
    builtRES.Inv ∧ step builtRES = .next builtRES ∧ refusedRC.Inv ∧ step refusedRC = .next refusedRC :=
  ⟨builtRES_inv, step_idle (by decide +kernel), refusedRC_inv, step_idle (by decide +kernel)⟩

theorem witness_TheBlockNeverStops : builtRES.Inv ∧ builtRES.portsWf = true := ⟨builtRES_inv, by decide +kernel⟩

/-- A request that is valid and one that is not. -/
theorem witness_TransactionEndsDecodedOrFailed :
    builtRES.Inv ∧ requestValid builtRES.config .rc { ports with count := 2008 } = true ∧
    requestValid builtRES.config .rc { ports with count := 2009 } = false := ⟨builtRES_inv, by decide +kernel, by decide +kernel⟩

/-- A transaction whose host awaits a response. -/
def reading : Transaction := { phase := .reading, fc := .res, rx := [], resent := false, block := builtRES }

/-- The transaction of program P4, step 6: timed out, recorded by ABORT, with its request still in TXBUF. -/
def timedOut : Transaction := (reading.advance (.read .timeout)).getD reading

/-- The retransmission of `timedOut`. -/
def resending : Transaction := timedOut.retransmit.getD timedOut

theorem reading_agrees : reading.Agrees where
  block := builtRES_inv
  shown := by intro p h; cases h; decide +kernel
  request := by decide +kernel
  code := by decide +kernel

theorem failedRES_inv : timedOut.block.Inv where
  txbufBound := by decide +kernel
  context := fun _ => ⟨.res, ⟨by decide +kernel, by decide +kernel, by decide +kernel, by decide +kernel, by decide +kernel,
    by decide +kernel, by decide +kernel⟩⟩
  noContext := by decide +kernel
  errFailed := by decide +kernel
  errCode := by decide +kernel
  phaseContext := by decide +kernel
  resultNone := by decide +kernel
  resultValue := fun h => absurd h (by decide +kernel)

theorem timedOut_agrees : timedOut.Agrees where
  block := failedRES_inv
  shown := by intro p h; cases h; decide +kernel
  request := by decide +kernel
  code := by decide +kernel

/-- Every event that can happen while a read is awaited, and a transaction whose request was refused. -/
theorem witness_HostPhasesMatchTheBlock :
    reading.Agrees ∧ (reading.advance (.read (.bytes [0x01, 0x07, 0x6D, 0xE3, 0xDD]))).isSome = true ∧
    (reading.advance (.read .timeout)).isSome = true ∧ (reading.advance (.cancel .reset)).isSome = true ∧
    (reading.advance (.retry .shortRead .retransmission)).isSome = true ∧
    (reading.advance (.retry .readError (.newEncode .res ports))).isSome = true ∧
    timedOut.Agrees ∧ (timedOut.advance .retransmit).isSome = true ∧
    ({ reading with phase := .failed, block := refusedRC } : Transaction).Agrees :=
  ⟨reading_agrees, by decide +kernel, by decide +kernel, by decide +kernel, by decide +kernel, by decide +kernel,
    timedOut_agrees, by decide +kernel, ⟨refusedRC_inv, by intro p h; cases h; decide +kernel, by decide +kernel,
    by intro _ h; exact absurd h (by decide +kernel)⟩⟩

/-- Each clause: FAILED with a built request, a failed read and a failed write, and Sending of a first and of a repeated request. -/
theorem witness_RetransmissionRepeatsTheRequest :
    (timedOut.Agrees ∧ timedOut.phase = .failed ∧ timedOut.block.ctx.valid = true) ∧
    (reading.Agrees ∧ reading.phase = TransportFailure.readTimeout.happensIn) ∧
    (({ reading with phase := .sending } : Transaction).Agrees ∧ TransportFailure.write.happensIn = .sending) ∧
    (resending.Agrees ∧ resending.phase = .sending ∧ resending.resent = true) :=
  ⟨⟨timedOut_agrees, by decide +kernel, by decide +kernel⟩, ⟨reading_agrees, rfl⟩,
   ⟨⟨builtRES_inv, by intro p h; cases h; decide +kernel, by decide +kernel, by decide +kernel⟩, rfl⟩,
   ⟨⟨failedRES_inv, by intro p h; cases h; decide +kernel, by decide +kernel, by decide +kernel⟩, by decide +kernel,
    by decide +kernel⟩⟩

theorem witness_NewEncodeStartsTheTransactionAnew :
    reading.phase = TransportFailure.shortRead.happensIn ∧ reading.phase.outstanding = true ∧
    timedOut.phase.outstanding = false := ⟨rfl, rfl, by decide +kernel⟩

/-- Program P4, step 6, by the host protocol: the late answer to a retransmission out of FAILED is decoded. The block shows FAILED
while the request is on its way. -/
theorem test_retransmission_out_of_failed :
    timedOut.block.status.toWord = 0x0023 ∧ resending.block.status.toWord = 0x0023 ∧
    hostAction resending.block resending.phase = some (.write [0x01, 0x07, 0x41, 0xE2]) ∧
    ((resending.advance (.written .done)).bind fun a => (a.advance .settled).bind fun b =>
      (b.advance (.read (.bytes [0x01, 0x07, 0x6D, 0xE3, 0xDD]))).bind fun c =>
        (c.advance .validate).map fun v => (v.phase, v.block.result, v.block.status.toWord)) =
      some (.decoded, .excStatus 0x6D, 0x0002) := by decide +kernel

/-- Nothing can be sent again after a refused request, whose TXBUF is empty. -/
theorem test_no_retransmission_of_a_refused_request :
    ({ reading with phase := .failed, block := refusedRC } : Transaction).advance .retransmit = none := by decide +kernel

theorem witness_XactIsTheHostProtocol :
    ({ reading with phase := .idle } : Transaction).phase.outstanding = false ∧
    ({ reading with phase := .failed } : Transaction).phase.outstanding = false ∧
    ({ reading with phase := .decoded } : Transaction).phase.outstanding = false := by decide

end Sys2Proof.Tests
end

section
/-! SUPPORT. Every command by its class: which shared operation gives it its meaning, and, read off it once, every next state a
command can answer. -/

namespace Sys2Proof.Machine

/-! ### The operands of a class, by function code -/

/-- The body that ENCODE of a function sends (41_frame_encoder.md rules R123 to R132). -/
def bodyOf : Fc → Ports → List Byte
  | .rc, p => bodyRC p.unit p.addr p.count
  | .rdi, p => bodyRDI p.unit p.addr p.count
  | .rhr, p => bodyRHR p.unit p.addr
  | .rir, p => bodyRIR p.unit p.addr p.count
  | .wsc, p => bodyWSC p.unit p.addr p.state
  | .wsr, p => bodyWSR p.unit p.addr p.value
  | .res, p => bodyRES p.unit
  | .diag, p => bodyDIAG p.unit p.bytes
  | .wmc, p => bodyWMC p.unit p.addr p.bits
  | .wmr, p => bodyWMR p.unit p.addr p.words

/-- The item count that ENCODE of a function latches in CTX (10_state.md rule R30). -/
def countOf : Fc → Ports → Word
  | .rc, p | .rdi, p | .rir, p => p.count
  | .rhr, _ | .wsc, _ | .wsr, _ => 1
  | .res, _ => 0
  | .diag, p => BitVec.ofNat 16 p.bytes.length
  | .wmc, p => BitVec.ofNat 16 p.bits.length
  | .wmr, p => BitVec.ofNat 16 p.words.length

/-- The extraction rule of DECODE of a function (43_response_decoder.md rules R172 to R181). -/
def extractionOf : Fc → State → List Byte → Extraction
  | .rc, s, rx | .rdi, s, rx => extractBits s rx
  | .rhr, _, rx => extractReg rx
  | .rir, s, rx => extractRegs s rx
  | .wsc, s, rx | .wsr, s, rx | .wmc, s, rx | .wmr, s, rx => extractEcho s rx
  | .res, _, rx => extractStatus rx
  | .diag, s, rx => extractData s rx

theorem exec_resolveOf (fc : Fc) (p : Ports) (s : State) : exec (resolveOf fc p) s = resolveLength fc p s := by
  cases fc <;> rfl

theorem exec_encodeOf (fc : Fc) (p : Ports) (s : State) :
    exec (encodeOf fc p) s = encodeRequest fc p (bodyOf fc p) (countOf fc p) s := by
  cases fc <;> rfl

theorem exec_decodeOf (fc : Fc) (rx : List Byte) (s : State) :
    exec (decodeOf fc rx) s = decodeResponse fc rx (extractionOf fc s rx) s := by
  cases fc <;> rfl

@[simp] theorem family_resolveOf (fc : Fc) (p : Ports) : family (resolveOf fc p) = .resolve := by cases fc <;> rfl
@[simp] theorem family_encodeOf (fc : Fc) (p : Ports) : family (encodeOf fc p) = .encode := by cases fc <;> rfl
@[simp] theorem family_decodeOf (fc : Fc) (rx : List Byte) : family (decodeOf fc rx) = .decode := by cases fc <;> rfl

@[simp] theorem family_crcInit (arg : Byte) : family (.crcInit arg) = .crcInit := rfl
@[simp] theorem family_crcUpdate (data : Byte) : family (.crcUpdate data) = .crcUpdate := rfl
@[simp] theorem family_crcCompute (arg : Byte) (bytes : List Byte) : family (.crcCompute arg bytes) = .crcCompute := rfl
@[simp] theorem family_crcVerify (arg : Byte) (bytes : List Byte) (rxcrc : Word) :
    family (.crcVerify arg bytes rxcrc) = .crcVerify := rfl
@[simp] theorem family_resolveInvalid (b : Byte) : family (.resolveInvalid b) = .resolve := rfl
@[simp] theorem family_encodeInvalid (b : Byte) : family (.encodeInvalid b) = .encode := rfl
@[simp] theorem family_decodeInvalid (b : Byte) : family (.decodeInvalid b) = .decode := rfl
@[simp] theorem family_reset (arg : Byte) : family (.reset arg) = .reset := rfl

/-- DECODE's extraction reads CTX and TXBUF and no other register. -/
theorem extractionOf_congr (fc : Fc) (rx : List Byte) {s t : State} (hx : t.ctx = s.ctx) (hb : t.txbuf = s.txbuf) :
    extractionOf fc t rx = extractionOf fc s rx := by
  cases fc <;> simp only [extractionOf, extractBits, extractRegs, extractEcho, extractData, hx, hb]

/-! ### The classes -/

/-- A command by the shared operation that is its meaning: the three commands with a function code for all ten codes at once,
ABORT for its three codes, and every illegal command alike. -/
inductive CommandClass : Instr → Prop where
  | crcInit (arg : Byte) : CommandClass (.crcInit arg)
  | crcUpdate (data : Byte) : CommandClass (.crcUpdate data)
  | crcCompute (arg : Byte) (bytes : List Byte) : CommandClass (.crcCompute arg bytes)
  | crcVerify (arg : Byte) (bytes : List Byte) (rxcrc : Word) : CommandClass (.crcVerify arg bytes rxcrc)
  | resolve (fc : Fc) (p : Ports) : CommandClass (resolveOf fc p)
  | resolveInvalid (b : Byte) : CommandClass (.resolveInvalid b)
  | encode (fc : Fc) (p : Ports) : CommandClass (encodeOf fc p)
  | encodeInvalid (b : Byte) : CommandClass (.encodeInvalid b)
  | decode (fc : Fc) (rx : List Byte) : CommandClass (decodeOf fc rx)
  | decodeInvalid (b : Byte) : CommandClass (.decodeInvalid b)
  | abort {i : Instr} {e : ErrCode} (hf : family i = .abort)
      (he : e ∈ [.transportError, .timeout, .invalidResponseLength]) (hx : ∀ s, exec i s = abortWith e s) : CommandClass i
  | reset (arg : Byte) : CommandClass (.reset arg)
  | illegal {i : Instr} (hf : family i = .illegal) (hx : ∀ s, exec i s = illegalCommand s) : CommandClass i

theorem commandClass : (i : Instr) → CommandClass i
  | .crcInit arg => .crcInit arg
  | .crcUpdate data => .crcUpdate data
  | .crcCompute arg bytes => .crcCompute arg bytes
  | .crcVerify arg bytes rxcrc => .crcVerify arg bytes rxcrc
  | .resolveRC count => .resolve .rc { Ports.idle with count := count }
  | .resolveRDI count => .resolve .rdi { Ports.idle with count := count }
  | .resolveRHR => .resolve .rhr Ports.idle
  | .resolveRIR count => .resolve .rir { Ports.idle with count := count }
  | .resolveWSC => .resolve .wsc Ports.idle
  | .resolveWSR => .resolve .wsr Ports.idle
  | .resolveRES => .resolve .res Ports.idle
  | .resolveDIAG bytes => .resolve .diag { Ports.idle with bytes := bytes }
  | .resolveWMC bits => .resolve .wmc { Ports.idle with bits := bits }
  | .resolveWMR words => .resolve .wmr { Ports.idle with words := words }
  | .resolveInvalid b => .resolveInvalid b
  | .encodeRC unit addr count => .encode .rc { Ports.idle with unit := unit, addr := addr, count := count }
  | .encodeRDI unit addr count => .encode .rdi { Ports.idle with unit := unit, addr := addr, count := count }
  | .encodeRHR unit addr => .encode .rhr { Ports.idle with unit := unit, addr := addr }
  | .encodeRIR unit addr count => .encode .rir { Ports.idle with unit := unit, addr := addr, count := count }
  | .encodeWSC unit addr state => .encode .wsc { Ports.idle with unit := unit, addr := addr, state := state }
  | .encodeWSR unit addr value => .encode .wsr { Ports.idle with unit := unit, addr := addr, value := value }
  | .encodeRES unit => .encode .res { Ports.idle with unit := unit }
  | .encodeDIAG unit bytes => .encode .diag { Ports.idle with unit := unit, bytes := bytes }
  | .encodeWMC unit addr bits => .encode .wmc { Ports.idle with unit := unit, addr := addr, bits := bits }
  | .encodeWMR unit addr words => .encode .wmr { Ports.idle with unit := unit, addr := addr, words := words }
  | .encodeInvalid b => .encodeInvalid b
  | .decodeRC rx => .decode .rc rx
  | .decodeRDI rx => .decode .rdi rx
  | .decodeRHR rx => .decode .rhr rx
  | .decodeRIR rx => .decode .rir rx
  | .decodeWSC rx => .decode .wsc rx
  | .decodeWSR rx => .decode .wsr rx
  | .decodeRES rx => .decode .res rx
  | .decodeDIAG rx => .decode .diag rx
  | .decodeWMC rx => .decode .wmc rx
  | .decodeWMR rx => .decode .wmr rx
  | .decodeInvalid b => .decodeInvalid b
  | .abortTransportError => .abort (e := .transportError) rfl (by decide) fun _ => rfl
  | .abortTimeout => .abort (e := .timeout) rfl (by decide) fun _ => rfl
  | .abortInvalidResponseLength => .abort (e := .invalidResponseLength) rfl (by decide) fun _ => rfl
  | .reset arg => .reset arg
  | .abortIllegal _ | .illegalOpc00 _ | .illegalOpc0A0B _ | .illegalOpc0C0F _ | .illegalOpc101F _ | .illegalOpc203F _
  | .illegalOpc407F _ | .illegalOpc80FF _ => .illegal rfl fun _ => rfl

/-! ### Every next state a command can answer -/

/-- `Effect s i t`: command `i` takes state `s` to `t`, one constructor per way a command can end. -/
inductive Effect (s : State) : Instr → State → Prop where
  | crcInit (arg : Byte) : Effect s (.crcInit arg) (complete { s with acc := crcInitial })
  | crcUpdate (data : Byte) : Effect s (.crcUpdate data) (complete { s with acc := crcStep s.acc data })
  | crcCompute (arg : Byte) (bytes : List Byte) : Effect s (.crcCompute arg bytes) (complete { s with acc := crc bytes })
  | crcVerify (arg : Byte) (bytes : List Byte) (rxcrc : Word) :
      Effect s (.crcVerify arg bytes rxcrc)
        (setPrivAcc { s with status := s.status.verified (crc bytes == rxcrc) } (crc bytes))
  /-- RESOLVE_LEN answers a length. -/
  | lengthAnswered (fc : Fc) (p : Ports) (hv : requestValid s.config fc p = true) :
      Effect s (resolveOf fc p) (complete { s with lenout := BitVec.ofNat 16 (expLen fc p) })
  | lengthRefused {i : Instr} (hf : family i = .resolve) : Effect s i (refuseLength s)
  /-- ENCODE builds a request. -/
  | requestLatched (fc : Fc) (p : Ports) (hv : requestValid s.config fc p = true) :
      Effect s (encodeOf fc p)
        (latchRequest fc p.unit (bodyOf fc p) (countOf fc p) (BitVec.ofNat 16 (expLen fc p)) s)
  | requestRefused {i : Instr} (hf : family i = .encode) : Effect s i (refuseRequest s)
  /-- DECODE without a matching request. -/
  | decodeOutOfSequence {i : Instr} (hf : family i = .decode) : Effect s i (sequenceError s)
  /-- DECODE of a response with a wrong length or a wrong CRC. -/
  | responseRejected (fc : Fc) (rx : List Byte) (e : ErrCode) (p : Word) (hv : s.ctx.valid = true) (hc : s.ctx.fc = fc.toByte)
      (he : e ∈ [.invalidResponseLength, .checksumMismatch]) :
      Effect s (decodeOf fc rx) (raiseError e (setPrivAcc s p))
  | echoRejected (fc : Fc) (rx : List Byte) (p : Word) (hv : s.ctx.valid = true) (hc : s.ctx.fc = fc.toByte)
      (hw : extractionOf fc s rx = .wrongEcho) : Effect s (decodeOf fc rx) (raiseError .echoMismatch (setPrivAcc s p))
  /-- DECODE commits the value of a response. -/
  | resultCommitted (fc : Fc) (rx : List Byte) (r : DecodeResult) (p : Word) (hv : s.ctx.valid = true)
      (hc : s.ctx.fc = fc.toByte) (hr : extractionOf fc s rx = .value r) :
      Effect s (decodeOf fc rx) (commitResult r (setPrivAcc s p))
  /-- ABORT without a built request. -/
  | abortOutOfSequence {i : Instr} (hf : family i = .abort) (hv : s.ctx.valid = false) :
      Effect s i (failCommand .sequenceError s)
  | aborted {i : Instr} (e : ErrCode) (hf : family i = .abort) (hv : s.ctx.valid = true)
      (he : e ∈ [.transportError, .timeout, .invalidResponseLength]) : Effect s i (recordFailure e .ok s)
  | reset (arg : Byte) :
      Effect s (.reset arg)
        { s with acc := 0xFFFF, status := Status.reset, lenout := 0x0000, ctx := Ctx.reset, txbuf := [], result := .none }
  | illegal {i : Instr} (hf : family i = .illegal) : Effect s i (failCommand .illegalCommand s)

theorem decodeResponse_effect {fc : Fc} {rx : List Byte} {s t : State}
    (h : decodeResponse fc rx (extractionOf fc s rx) s = .next t) : Effect s (decodeOf fc rx) t := by
  rcases decodeResponse_cases h with ⟨-, ho⟩ | ⟨hv, hc, ⟨-, ho⟩ | ⟨-, ⟨-, ho⟩ | ⟨_, -, -, ho⟩ | ⟨-, ho⟩⟩⟩
  · cases ho; exact .decodeOutOfSequence (family_decodeOf fc rx)
  · cases ho; exact .responseRejected fc rx _ _ hv hc.symm (by decide)
  · cases ho
  · cases ho; exact .responseRejected fc rx _ _ hv hc.symm (by decide)
  · rcases finishDecode_cases ho.symm with ⟨r, hr, ho⟩ | ⟨hw, ho⟩ | ⟨-, ho⟩
    · cases ho; exact .resultCommitted fc rx r _ hv hc.symm hr
    · cases ho; exact .echoRejected fc rx _ hv hc.symm hw
    · cases ho

/-- The inversion of `exec`: a next state is one of the effects of the command. -/
theorem exec_effect {i : Instr} {s t : State} (h : exec i s = .next t) : Effect s i t := by
  cases commandClass i with
  | crcInit arg => cases h; exact .crcInit arg
  | crcUpdate data => cases h; exact .crcUpdate data
  | crcCompute arg bytes => cases h; exact .crcCompute arg bytes
  | crcVerify arg bytes rxcrc => cases h; exact .crcVerify arg bytes rxcrc
  | resolve fc p =>
    rcases resolveLength_cases (exec_resolveOf fc p s ▸ h) with ⟨hv, ho⟩ | ⟨-, ho⟩
    · cases ho; exact .lengthAnswered fc p hv
    · cases ho; exact .lengthRefused (family_resolveOf fc p)
  | resolveInvalid b => cases h; exact .lengthRefused rfl
  | encode fc p =>
    rcases encodeRequest_cases (exec_encodeOf fc p s ▸ h) with ⟨hv, ho⟩ | ⟨-, ho⟩
    · cases ho; exact .requestLatched fc p hv
    · cases ho; exact .requestRefused (family_encodeOf fc p)
  | encodeInvalid b => cases h; exact .requestRefused rfl
  | decode fc rx => exact decodeResponse_effect (exec_decodeOf fc rx s ▸ h)
  | decodeInvalid b => cases h; exact .decodeOutOfSequence rfl
  | abort hf he hx =>
    rcases abortWith_cases (hx s ▸ h) with ⟨hv, ho⟩ | ⟨hv, ho⟩
    · cases ho; exact .abortOutOfSequence hf hv
    · cases ho; exact .aborted _ hf hv he
  | reset arg => cases h; exact .reset arg
  | illegal hf hx => cases (hx s).symm.trans h; exact .illegal hf

end Sys2Proof.Machine
end

section
/-! SUPPORT. The block's invariant through each effect of a command. -/

namespace Sys2Proof.Machine

/-! ### What a built request's context says -/

/-- The item count of a request's operands, on unbounded integers. -/
def itemsOf : Fc → Ports → Nat
  | .rc, p | .rdi, p | .rir, p => p.count.toNat
  | .rhr, _ | .wsc, _ | .wsr, _ => 1
  | .res, _ => 0
  | .diag, p => p.bytes.length
  | .wmc, p => p.bits.length
  | .wmr, p => p.words.length

/-- A valid request has few enough items for CTX.count. -/
theorem itemsOf_lt {cfg : Config} {fc : Fc} {p : Ports} (h : requestValid cfg fc p = true) : itemsOf fc p < 65536 := by
  obtain ⟨-, hreq, -⟩ := requestValid_iff.mp h
  have hmax := cfg.legal.2
  cases fc with
  | rc | rdi | rir => exact p.count.isLt
  | rhr | wsc | wsr | res => simp [itemsOf]
  | diag | wmc | wmr => simp only [reqLen, ceil8, itemsOf] at *; omega

theorem countOf_toNat {cfg : Config} {fc : Fc} {p : Ports} (h : requestValid cfg fc p = true) :
    (countOf fc p).toNat = itemsOf fc p := by
  have hlt := itemsOf_lt h
  cases fc with
  | rc | rdi | rir | rhr | wsc | wsr | res => rfl
  | diag | wmc | wmr => exact (BitVec.toNat_ofNat _ _).trans (Nat.mod_eq_of_lt hlt)

/-- A valid request's response length fits CTX.explen. -/
theorem ofNat_expLen_toNat {cfg : Config} {fc : Fc} {p : Ports} (h : requestValid cfg fc p = true) :
    (BitVec.ofNat 16 (expLen fc p)).toNat = expLen fc p := by
  obtain ⟨-, -, hexp⟩ := requestValid_iff.mp h
  have hmax := cfg.legal.2
  rw [BitVec.toNat_ofNat]
  exact Nat.mod_eq_of_lt (by omega)

theorem expLen_eq_responseLengthOf (fc : Fc) (p : Ports) : expLen fc p = responseLengthOf fc (itemsOf fc p) := by
  cases fc <;> rfl

theorem reqLen_eq_requestLengthOf (fc : Fc) (p : Ports) : reqLen fc p = requestLengthOf fc (itemsOf fc p) := by
  cases fc <;> rfl

theorem countPossible_itemsOf {cfg : Config} {fc : Fc} {p : Ports} (h : requestValid cfg fc p = true) :
    countPossible fc (itemsOf fc p) = true := by
  obtain ⟨hcount, -, -⟩ := requestValid_iff.mp h
  cases fc with
  | rc | rdi | rir => exact hcount
  | rhr | wsc | wsr | res | diag => rfl
  | wmc => exact decide_eq_true (countAllowed_wmc.mp hcount).1
  | wmr => exact decide_eq_true (countAllowed_wmr.mp hcount).1

theorem coilState_length (b : Bool) : (coilState b).length = 2 := by cases b <;> rfl

/-- The body and its CRC have the request's length (41_frame_encoder.md rule R121). -/
theorem bodyOf_length (fc : Fc) (p : Ports) : (bodyOf fc p).length + 2 = reqLen fc p := by
  cases fc with
  | rc | rdi | rhr | rir | wsr | res => rfl
  | wsc => simp [bodyOf, bodyWSC, reqLen, be16_length, coilState_length]
  | diag => simp [bodyOf, bodyDIAG, reqLen]; omega
  | wmc => simp [bodyOf, bodyWMC, reqLen, be16_length, packBits_length]; omega
  | wmr => simp [bodyOf, bodyWMR, reqLen, be16_length, packWords_length]; omega

/-- A request begins with its unit and its function code. -/
theorem withCrc_bodyOf_take_two (fc : Fc) (p : Ports) : (withCrc (bodyOf fc p)).take 2 = [p.unit, fc.toByte] := by
  cases fc <;> rfl

/-- ENCODE of a valid request leaves a CTX that describes it. -/
theorem latchRequest_contextDescribes {fc : Fc} {p : Ports} {s : State} (h : requestValid s.config fc p = true) :
    ContextDescribes
      (latchRequest fc p.unit (bodyOf fc p) (countOf fc p) (BitVec.ofNat 16 (expLen fc p)) s) fc := by
  obtain ⟨-, -, hexp⟩ := requestValid_iff.mp h
  constructor <;> simp only [latchRequest_ctx, latchRequest_txbuf, latchRequest_config, countOf_toNat h, ofNat_expLen_toNat h]
  case count => exact countPossible_itemsOf h
  case explen => exact expLen_eq_responseLengthOf fc p
  case bound => exact hexp
  case length => rw [withCrc_length, bodyOf_length, reqLen_eq_requestLengthOf]
  case head => exact withCrc_bodyOf_take_two fc p
  case crc => exact crcValid_withCrc _

/-! ### What a decoded result is -/

theorem extractAt_eq_value {rx : List Byte} {i n : Nat} {read : List Byte → DecodeResult} {r : DecodeResult}
    (h : extractAt rx i n read = .value r) : ∃ data, data.length = n ∧ r = read data := by
  unfold extractAt at h
  split at h
  · next data hd => exact ⟨data, memRead_length hd, (Extraction.value.inj h).symm⟩
  · cases h

theorem extractReg_eq_value {rx : List Byte} {r : DecodeResult} (h : extractReg rx = .value r) : ∃ v, r = .reg v := by
  unfold extractReg at h
  split at h
  · exact ⟨_, (Extraction.value.inj h).symm⟩
  · cases h

theorem extractStatus_eq_value {rx : List Byte} {r : DecodeResult} (h : extractStatus rx = .value r) :
    ∃ e, r = .excStatus e := by
  unfold extractStatus at h
  split at h
  · exact ⟨_, (Extraction.value.inj h).symm⟩
  · cases h

theorem extractEcho_eq_value {s : State} {rx : List Byte} {r : DecodeResult} (h : extractEcho s rx = .value r) :
    r = .writeOk := by
  unfold extractEcho at h
  split at h
  · split at h
    · exact (Extraction.value.inj h).symm
    · cases h
  · cases h

/-- An extracted value is of the variant and the size that CTX.count gives it (10_state.md rule R32). -/
theorem resultFits_of_extractionOf {fc : Fc} {s : State} {rx : List Byte} {r : DecodeResult}
    (h : extractionOf fc s rx = .value r) : resultFits fc s.ctx.count.toNat r := by
  cases fc with
  | rc | rdi =>
    obtain ⟨data, -, rfl⟩ := extractAt_eq_value h
    exact ⟨_, rfl, unpackBits_length data _⟩
  | rir =>
    obtain ⟨data, hl, rfl⟩ := extractAt_eq_value h
    exact ⟨_, rfl, by rw [unpackWords_length, hl]; omega⟩
  | diag =>
    obtain ⟨data, hl, rfl⟩ := extractAt_eq_value h
    exact ⟨data, rfl, hl⟩
  | rhr => exact extractReg_eq_value h
  | res => exact extractStatus_eq_value h
  | wsc | wsr | wmc | wmr => exact extractEcho_eq_value h

/-! ### The invariant through each effect -/

theorem ContextDescribes.congr {s t : State} {fc : Fc} (h : ContextDescribes s fc) (hg : t.config = s.config)
    (hx : t.ctx = s.ctx) (hb : t.txbuf = s.txbuf) : ContextDescribes t fc := by
  obtain ⟨hcode, hcount, hexplen, hbound, hlength, hhead, hcrc⟩ := h
  constructor <;> simpa only [hg, hx, hb]

/-- The invariant reads MAX_ADU, CTX, TXBUF, PHASE, ERR and RESULT only. -/
theorem State.Inv.congr {s t : State} (h : s.Inv) (hg : t.config = s.config) (hx : t.ctx = s.ctx) (hb : t.txbuf = s.txbuf)
    (hp : t.status.phase = s.status.phase) (he : t.status.err = s.status.err) (hr : t.result = s.result) : t.Inv where
  txbufBound := by rw [hb, hg]; exact h.txbufBound
  context hv := (h.context (hx ▸ hv)).imp fun _ hd => hd.congr hg hx hb
  noContext hv := hb.trans (h.noContext (hx ▸ hv))
  errFailed := by rw [he, hp]; exact h.errFailed
  errCode := by rw [he]; exact h.errCode
  phaseContext := by rw [hp, hx]; exact h.phaseContext
  resultNone hn := hr.trans (h.resultNone (hp ▸ hn))
  resultValue := by rw [hp, hx, hr]; exact h.resultValue

/-- A recorded failure asks of TXBUF and CTX only what they meet already; its code must be one of a transaction. -/
theorem State.Inv.recordFailure {s : State} (h : s.Inv) {e c : ErrCode}
    (he : e ∉ [.ok, .sequenceError, .illegalCommand]) : (recordFailure e c s).Inv := by
  obtain ⟨hok, hseq, hill⟩ : e ≠ .ok ∧ e ≠ .sequenceError ∧ e ≠ .illegalCommand := by simpa using he
  exact {
    txbufBound := h.txbufBound
    context := fun hv => (h.context hv).imp fun _ hd => hd.congr rfl rfl rfl
    noContext := h.noContext
    errFailed := by simpa using hok
    errCode := ⟨hseq, hill⟩
    phaseContext := by simp
    resultNone := fun _ => rfl
    resultValue := by simp }

theorem State.Inv.setPrivAcc {s : State} (h : s.Inv) (v : Word) : (setPrivAcc s v).Inv := h.congr rfl rfl rfl rfl rfl rfl

theorem State.Inv.sequenceError {s : State} (h : s.Inv) : (sequenceError s).Inv := h.congr rfl rfl rfl rfl rfl rfl

theorem State.Inv.failCommand {s : State} (h : s.Inv) (e : ErrCode) : (failCommand e s).Inv := h.congr rfl rfl rfl rfl rfl rfl

/-- A committed value that fits the latched request makes a DECODED state of the invariant. -/
theorem State.Inv.commitResult {s : State} (h : s.Inv) {fc : Fc} {r : DecodeResult} (hv : s.ctx.valid = true)
    (hc : s.ctx.fc = fc.toByte) (hr : resultFits fc s.ctx.count.toNat r) : (commitResult r s).Inv where
  txbufBound := h.txbufBound
  context hv := (h.context hv).imp fun _ hd => hd.congr rfl rfl rfl
  noContext := h.noContext
  errFailed := by simp
  errCode := by simp
  phaseContext := by simpa using hv
  resultNone := by simp
  resultValue _ fc' hc' := by
    obtain rfl : fc = fc' := toByte_injective (hc.symm.trans hc')
    exact hr

theorem latchRequest_inv {fc : Fc} {p : Ports} {s : State} (h : requestValid s.config fc p = true) :
    (latchRequest fc p.unit (bodyOf fc p) (countOf fc p) (BitVec.ofNat 16 (expLen fc p)) s).Inv where
  txbufBound := latchRequest_bound (by rw [bodyOf_length]; exact (requestValid_iff.mp h).2.1)
  context _ := ⟨fc, latchRequest_contextDescribes h⟩
  noContext := by simp
  errFailed := by simp
  errCode := by simp
  phaseContext := by simp
  resultNone := by simp
  resultValue := by simp

theorem refuseRequest_inv (s : State) : (refuseRequest s).Inv where
  txbufBound := refuseRequest_bound s
  context := by simp
  noContext := by simp
  errFailed := by simp
  errCode := by simp
  phaseContext := by simp
  resultNone := by simp
  resultValue := by simp

/-- The registers at their reset values (10_state.md rule R36) meet the invariant, whatever the others hold. -/
theorem State.Inv.of_reset {t : State} (ht : t.status = Status.reset) (hx : t.ctx = Ctx.reset) (hb : t.txbuf = [])
    (hr : t.result = .none) : t.Inv where
  txbufBound := by simp [hb]
  context := by simp [hx, Ctx.reset]
  noContext _ := hb
  errFailed := by simp [ht, Status.reset]
  errCode := by simp [ht, Status.reset]
  phaseContext := by simp [ht, hx, Status.reset, Ctx.reset]
  resultNone _ := hr
  resultValue := by simp [ht, Status.reset]

/-- Every effect of a command keeps the invariant. -/
theorem Effect.inv {i : Instr} {s t : State} (e : Effect s i t) (h : s.Inv) : t.Inv := by
  cases e with
  | crcInit | crcUpdate | crcCompute | crcVerify | lengthAnswered | lengthRefused => exact h.congr rfl rfl rfl rfl rfl rfl
  | requestLatched fc p hv => exact latchRequest_inv hv
  | requestRefused => exact refuseRequest_inv s
  | decodeOutOfSequence => exact h.sequenceError
  | responseRejected fc rx e p hv hc he => exact (h.setPrivAcc p).recordFailure (by fin_cases he <;> decide)
  | echoRejected fc rx p => exact (h.setPrivAcc p).recordFailure (by decide)
  | resultCommitted fc rx r p hv hc hr => exact (h.setPrivAcc p).commitResult hv hc (resultFits_of_extractionOf (s := s) hr)
  | abortOutOfSequence => exact h.failCommand _
  | aborted e hf hv he => exact h.recordFailure (by fin_cases he <;> decide)
  | reset arg => exact .of_reset rfl rfl rfl rfl
  | illegal => exact h.failCommand _

theorem exec_inv {i : Instr} {s t : State} (h : exec i s = .next t) (hs : s.Inv) : t.Inv := (exec_effect h).inv hs

end Sys2Proof.Machine
end

section
/-! SUPPORT. Two runs of one command, from states that differ in a register the command does not read. -/

namespace Sys2Proof.Machine

open Sys2Proof.Claims

theorem seen_id (o : Host.Outcome State Fault Refusal) : seen id o = o := by cases o <;> rfl

/-- The commands that read none of ACC, VFY and `privAcc` and write none of ACC and VFY: RESOLVE_LEN, ENCODE, DECODE, ABORT and
the illegal ones, all but the CRC family and RESET. -/
def transactional (i : Instr) : Prop := family i ∈ [.resolve, .encode, .decode, .abort, .illegal]

theorem transactional_or_crc_or_reset (i : Instr) :
    transactional i ∨ (∃ arg, i = .crcInit arg) ∨ (∃ data, i = .crcUpdate data) ∨ (∃ arg bytes, i = .crcCompute arg bytes) ∨
    (∃ arg bytes rxcrc, i = .crcVerify arg bytes rxcrc) ∨ ∃ arg, i = .reset arg := by
  cases commandClass i with
  | crcInit | crcUpdate | crcCompute | crcVerify | reset => simp
  | abort hf | illegal hf => simp [transactional, hf]
  | resolve | resolveInvalid | encode | encodeInvalid | decode | decodeInvalid => simp [transactional]

/-- `s` and `s'` agree in what the transactional commands read, and every state such a command makes of `s'` looks through `v` as
the one it makes of `s` looks through `w`. -/
structure Corresponds (v w : State → State) (s' s : State) : Prop where
  config : s'.config = s.config
  ctx : s'.ctx = s.ctx
  txbuf : s'.txbuf = s.txbuf
  length : ∀ l, v (complete { s' with lenout := l }) = w (complete { s with lenout := l })
  noLength : v (refuseLength s') = w (refuseLength s)
  latch : ∀ fc u b n l, v (latchRequest fc u b n l s') = w (latchRequest fc u b n l s)
  refuse : v (refuseRequest s') = w (refuseRequest s)
  sequence : v (sequenceError s') = w (sequenceError s)
  reject : ∀ e p, v (raiseError e (setPrivAcc s' p)) = w (raiseError e (setPrivAcc s p))
  commit : ∀ r p, v (commitResult r (setPrivAcc s' p)) = w (commitResult r (setPrivAcc s p))
  command : ∀ e, v (failCommand e s') = w (failCommand e s)
  failure : ∀ e c, v (recordFailure e c s') = w (recordFailure e c s)

namespace Corresponds

variable {v w : State → State} {s' s : State} (h : Corresponds v w s' s)
include h

theorem resolveLength (fc : Fc) (p : Ports) : seen v (resolveLength fc p s') = seen w (resolveLength fc p s) := by
  cases hv : requestValid s.config fc p with
  | true =>
    rw [resolveLength_valid hv, resolveLength_valid (h.config ▸ hv)]
    exact congrArg _ (h.length _)
  | false =>
    rw [resolveLength_invalid hv, resolveLength_invalid (h.config ▸ hv)]
    exact congrArg _ h.noLength

theorem encodeRequest (fc : Fc) (p : Ports) (b : List Byte) (n : Word) :
    seen v (encodeRequest fc p b n s') = seen w (encodeRequest fc p b n s) := by
  cases hv : requestValid s.config fc p with
  | true =>
    rw [encodeRequest_valid hv, encodeRequest_valid (h.config ▸ hv)]
    exact congrArg _ (h.latch ..)
  | false =>
    rw [encodeRequest_invalid hv, encodeRequest_invalid (h.config ▸ hv)]
    exact congrArg _ h.refuse

theorem finishDecode (x : Extraction) (p : Word) :
    seen v (finishDecode x (setPrivAcc s' p)) = seen w (finishDecode x (setPrivAcc s p)) := by
  cases x with
  | value r => exact congrArg _ (h.commit r p)
  | wrongEcho => exact congrArg _ (h.reject _ p)
  | unreadable => rfl

theorem checkCrc (rx : List Byte) (x : Extraction) : seen v (checkCrc rx x s') = seen w (checkCrc rx x s) := by
  unfold Machine.checkCrc
  split
  · rfl
  · split
    · exact h.finishDecode x _
    · exact congrArg _ (h.reject _ _)

theorem decodeResponse (fc : Fc) (rx : List Byte) (x : Extraction) :
    seen v (decodeResponse fc rx x s') = seen w (decodeResponse fc rx x s) := by
  unfold Machine.decodeResponse
  rw [h.ctx]
  split
  · exact congrArg _ h.sequence
  · split
    · exact congrArg _ (h.reject _ _)
    · exact h.checkCrc rx x

theorem abortWith (e : ErrCode) : seen v (abortWith e s') = seen w (abortWith e s) := by
  unfold Machine.abortWith
  rw [h.ctx]
  split
  · exact congrArg _ (h.command _)
  · exact congrArg _ (h.failure e _)

/-- A transactional command answers corresponding outcomes. -/
theorem exec {i : Instr} (hi : transactional i) : seen v (exec i s') = seen w (exec i s) := by
  cases commandClass i with
  | resolve fc p => simpa only [exec_resolveOf] using h.resolveLength fc p
  | resolveInvalid b => exact congrArg _ h.noLength
  | encode fc p => simpa only [exec_encodeOf] using h.encodeRequest fc p _ _
  | encodeInvalid b => exact congrArg _ h.refuse
  | decode fc rx =>
    simpa only [exec_decodeOf, extractionOf_congr fc rx h.ctx h.txbuf] using h.decodeResponse fc rx _
  | decodeInvalid b => exact congrArg _ h.sequence
  | abort hf he hx => simpa only [hx] using h.abortWith _
  | illegal hf hx => rw [hx, hx]; exact congrArg Host.Outcome.next (h.command _)
  | crcInit | crcUpdate | crcCompute | crcVerify | reset => simp [transactional] at hi

end Corresponds

/-- Another value of the accumulator of 10_state.md rule R33, seen without it. -/
theorem corresponds_privAcc (s : State) (p : Word) :
    Corresponds (fun t => { t with privAcc := 0 }) (fun t => { t with privAcc := 0 }) { s with privAcc := p } s := by
  constructor <;> intros <;> rfl

/-- Another VFY, still there afterwards. -/
theorem corresponds_vfy (s : State) (b : Bool) :
    Corresponds id (fun t => { t with status := { t.status with vfy := b } }) { s with status := { s.status with vfy := b } } s := by
  constructor <;> intros <;> rfl

/-- Another ACC, still there afterwards. -/
theorem corresponds_acc (s : State) (a : Word) :
    Corresponds id (fun t => { t with acc := a }) { s with acc := a } s := by
  constructor <;> intros <;> rfl

theorem transactional_writes_neither {i : Instr} (hi : transactional i) :
    ¬(isVerify i = true ∨ isReset i = true) ∧ ¬writesAcc i = true := by
  unfold transactional at hi
  unfold isVerify isReset writesAcc
  generalize family i = f at hi
  fin_cases hi <;> decide

theorem exec_withVfy (i : Instr) (s : State) (b : Bool) :
    exec i { s with status := { s.status with vfy := b } } =
      if isVerify i = true ∨ isReset i = true then exec i s
      else seen (fun t => { t with status := { t.status with vfy := b } }) (exec i s) := by
  rcases transactional_or_crc_or_reset i with
    hi | ⟨_, rfl⟩ | ⟨_, rfl⟩ | ⟨_, _, rfl⟩ | ⟨_, _, _, rfl⟩ | ⟨_, rfl⟩
  case inl =>
    rw [if_neg (transactional_writes_neither hi).1, ← (corresponds_vfy s b).exec hi, seen_id]
  all_goals rfl

theorem exec_withAcc {i : Instr} (hu : isUpdate i = false) (s : State) (a : Word) :
    exec i { s with acc := a } = if writesAcc i = true then exec i s else seen (fun t => { t with acc := a }) (exec i s) := by
  rcases transactional_or_crc_or_reset i with
    hi | ⟨_, rfl⟩ | ⟨_, rfl⟩ | ⟨_, _, rfl⟩ | ⟨_, _, _, rfl⟩ | ⟨_, rfl⟩
  case inl =>
    rw [if_neg (transactional_writes_neither hi).2, ← (corresponds_acc s a).exec hi, seen_id]
  case inr.inr.inl => cases hu
  all_goals rfl

end Sys2Proof.Machine
end

section
/-! SUPPORT. The STATUS word as a sum of its fields' codes, and what a word of the opcode table presents. -/

namespace Sys2Proof.Machine

/-- Appended words as a sum of weights. -/
theorem toNat_append_eq_add {m n : Nat} (x : BitVec m) (y : BitVec n) : (x ++ y).toNat = x.toNat * 2 ^ n + y.toNat := by
  rw [BitVec.toNat_append, ← Nat.shiftLeft_add_eq_or_of_lt y.isLt, Nat.shiftLeft_eq]

/-- Each appended field of STATUS shifts those above it. -/
theorem toWord_toNat (t : Status) : t.toWord.toNat =
    t.phase.bits.toNat + 4 * (BitVec.ofBool t.vfy).toNat + 16 * t.err.bits.toNat + 256 * t.cst.bits.toNat := by
  simp only [Status.toWord, toNat_append_eq_add, BitVec.toNat_ofNat]
  omega

theorem decodeTableWord_eq_some {nbits w : Nat} {i : Instr} (h : decodeTableWord nbits w = some i) :
    decode (commandOfTableWord nbits w) = .ok i := by
  unfold decodeTableWord at h
  split at h
  · cases hd : decode (commandOfTableWord nbits w) <;> simp_all [Except.toOption]
  · cases h

end Sys2Proof.Machine
end

section
/-! The obligations of the state's registers, each from the lemmas above. -/

namespace Sys2Proof.Proofs

open Sys2Proof.Machine Sys2Proof.Claims

/-- Settles O51: a step holds the state or is one effect of the decoded command, and each effect keeps the invariant. -/
theorem stepKeepsTheInvariant : Obligations.StepKeepsTheInvariant := by
  intro s t hs h
  rcases step_cases h with ⟨-, ho⟩ | ⟨c, rest, -, ⟨i, -, ho⟩ | ⟨e, -, ho⟩⟩
  · cases ho; exact hs
  · have hrest : State.Inv { s with commands := rest } := hs.congr rfl rfl rfl rfl rfl rfl
    exact exec_inv ho.symm hrest
  · cases ho

/-- Settles O36: each effect of a command has its row of the table. -/
theorem phaseFollowsTheTransitionTable : Obligations.PhaseFollowsTheTransitionTable := by
  intro i s t h
  cases exec_effect h with
  | crcInit | crcUpdate | crcCompute | crcVerify | lengthAnswered =>
    simp [isEncode, isDecode, isAbort, isReset]
  | requestLatched | reset => simp [isEncode, isDecode, isAbort, isReset, Status.reset]
  | lengthRefused hf | illegal hf | requestRefused hf | decodeOutOfSequence hf =>
    simp [isEncode, isDecode, isAbort, isReset, hf]
  | responseRejected fc rx e p hv hc he =>
    fin_cases he <;> simp [isEncode, isDecode, isAbort, isReset, hv]
  | echoRejected fc rx p hv | resultCommitted fc rx r p hv => simp [isEncode, isDecode, isAbort, isReset, hv]
  | abortOutOfSequence hf hv | aborted e hf hv => simp [isEncode, isDecode, isAbort, isReset, hf, hv]

/-- Settles O38: each effect of a command writes the registers of its family only. -/
theorem onlyItsWritersChangeARegister : Obligations.OnlyItsWritersChangeARegister := by
  intro i s t h
  cases exec_effect h with
  | crcInit | crcUpdate | crcCompute | crcVerify | lengthAnswered | requestLatched | responseRejected | echoRejected
  | resultCommitted | reset =>
    simp [writesAcc, isVerify, isResolve, isEncode, isDecode, isAbort, isReset]
  | lengthRefused hf | requestRefused hf | decodeOutOfSequence hf | abortOutOfSequence hf | aborted _ hf | illegal hf =>
    simp [writesAcc, isVerify, isResolve, isEncode, isDecode, isAbort, isReset, hf]

/-- Settles O41: CRC_VERIFY, ENCODE and DECODE overwrite `privAcc`, and the others only carry it. -/
theorem privateAccumulatorIsNeverRead : Obligations.PrivateAccumulatorIsNeverRead := by
  intro i s p
  rcases transactional_or_crc_or_reset i with
    hi | ⟨_, rfl⟩ | ⟨_, rfl⟩ | ⟨_, _, rfl⟩ | ⟨_, _, _, rfl⟩ | ⟨_, rfl⟩
  case inl => exact (corresponds_privAcc s p).exec hi
  all_goals rfl

/-- Settles O42: the two registers one by one. -/
theorem vfyAndAccAreNotReadByOthers : Obligations.VfyAndAccAreNotReadByOthers :=
  fun i s => ⟨exec_withVfy i s, fun hu => exec_withAcc hu s⟩

/-- Settles O35: the STATUS word is the weighted sum of its fields' codes. -/
theorem statusWordHasTheSpecifiedLayout : Obligations.StatusWordHasTheSpecifiedLayout := by
  intro t
  refine ⟨?_, by decide⟩
  rw [toWord_toNat]
  obtain ⟨phase, vfy, err, cst⟩ := t
  cases phase <;> cases vfy <;> rfl

/-- Settles O48: the three cases of a step, the last clause with the table word's command presented first. -/
theorem stepRunsTheDecodedCommand : Obligations.StepRunsTheDecodedCommand := fun s =>
  ⟨step_idle, fun _ _ _ => step_decoded, fun _ _ _ => step_malformed,
    fun nbits w _ h => step_decoded (s := s.withFetchWord nbits w) rfl (decodeTableWord_eq_some h)⟩

/-- Settles O50: power-on gives the registers their reset values. -/
theorem invariantHoldsAtReset : Obligations.InvariantHoldsAtReset := .of_reset rfl rfl rfl rfl

end Sys2Proof.Proofs
end

section
/-! SUPPORT. What the decoder reads from a command word, said once: one constructor per row of the tables of 30_encoding.md
rules R61 and R62, the ten function codes of a family together. -/

namespace Sys2Proof

open Sys2Proof.Machine

/-! ### Words of high and low bits -/

/-- A word whose high part is `x` is `x` followed by its low bits. -/
theorem append_setWidth_low {m n : Nat} {x : BitVec m} {cw : BitVec (m + n)} (h : cw.toNat / 2 ^ n = x.toNat) :
    x ++ cw.setWidth n = cw := by
  apply BitVec.eq_of_toNat_eq
  rw [toNat_append_eq_add, BitVec.toNat_setWidth, ← h]
  exact Nat.div_add_mod' _ _

/-- OPC and ARG8 are the two digits of the command word in base 256 (30_encoding.md rule R60). -/
theorem toNat_eq_opcOf_arg8Of (cw : Word) : cw.toNat = (opcOf cw).toNat * 256 + (arg8Of cw).toNat := by
  conv_lhs => rw [← commandWord_fields cw]
  exact toNat_append_eq_add _ _

theorem commandWord_toNat_div (opc arg : Byte) : (commandWord opc arg).toNat / 256 = opc.toNat := by
  have h := toNat_eq_opcOf_arg8Of (commandWord opc arg)
  rw [opcOf_commandWord, arg8Of_commandWord] at h
  have := arg.isLt
  omega

/-! ### The reading of a word -/

/-- `Reading p cw i`: with `p` on the ports, the command word `cw` stands for `i`. -/
inductive Reading (p : Ports) : Word → Instr → Prop where
  | crcInit (arg : Byte) : Reading p (commandWord 0x01 arg) (.crcInit arg)
  | crcUpdate (data : Byte) : Reading p (commandWord 0x02 data) (.crcUpdate data)
  | crcCompute (arg : Byte) : Reading p (commandWord 0x03 arg) (.crcCompute arg p.bytes)
  | crcVerify (arg : Byte) : Reading p (commandWord 0x04 arg) (.crcVerify arg p.bytes p.rxcrc)
  | resolve (fc : Fc) : Reading p (commandWord 0x05 fc.toByte) (resolveOf fc p)
  | resolveInvalid (b : Byte) (hb : Fc.ofByte? b = none) : Reading p (commandWord 0x05 b) (.resolveInvalid b)
  | encode (fc : Fc) : Reading p (commandWord 0x06 fc.toByte) (encodeOf fc p)
  | encodeInvalid (b : Byte) (hb : Fc.ofByte? b = none) : Reading p (commandWord 0x06 b) (.encodeInvalid b)
  | decode (fc : Fc) : Reading p (commandWord 0x07 fc.toByte) (decodeOf fc p.rx)
  | decodeInvalid (b : Byte) (hb : Fc.ofByte? b = none) : Reading p (commandWord 0x07 b) (.decodeInvalid b)
  | abortTransportError : Reading p (commandWord 0x08 0x01) .abortTransportError
  | abortTimeout : Reading p (commandWord 0x08 0x02) .abortTimeout
  | abortInvalidResponseLength : Reading p (commandWord 0x08 0x03) .abortInvalidResponseLength
  | abortIllegal (code : Byte) (hc : code ∉ abortCodes) : Reading p (commandWord 0x08 code) (.abortIllegal code)
  | reset (arg : Byte) : Reading p (commandWord 0x09 arg) (.reset arg)
  | illegalOpc00 (arg : Byte) : Reading p (commandWord 0x00 arg) (.illegalOpc00 arg)
  | illegalOpc0A0B (low : BitVec 9) : Reading p (0b0000101#7 ++ low) (.illegalOpc0A0B low)
  | illegalOpc0C0F (low : BitVec 10) : Reading p (0b000011#6 ++ low) (.illegalOpc0C0F low)
  | illegalOpc101F (low : BitVec 12) : Reading p (0b0001#4 ++ low) (.illegalOpc101F low)
  | illegalOpc203F (low : BitVec 13) : Reading p (0b001#3 ++ low) (.illegalOpc203F low)
  | illegalOpc407F (low : BitVec 14) : Reading p (0b01#2 ++ low) (.illegalOpc407F low)
  | illegalOpc80FF (low : BitVec 15) : Reading p (0b1#1 ++ low) (.illegalOpc80FF low)

theorem reading_readResolve (p : Ports) (arg : Byte) : Reading p (commandWord 0x05 arg) (readResolve arg p) := by
  unfold readResolve
  split
  · next fc h => exact toByte_of_ofByte? h ▸ .resolve fc
  · next h => exact .resolveInvalid arg h

theorem reading_readEncode (p : Ports) (arg : Byte) : Reading p (commandWord 0x06 arg) (readEncode arg p) := by
  unfold readEncode
  split
  · next fc h => exact toByte_of_ofByte? h ▸ .encode fc
  · next h => exact .encodeInvalid arg h

theorem reading_readDecode (p : Ports) (arg : Byte) : Reading p (commandWord 0x07 arg) (readDecode arg p) := by
  unfold readDecode
  split
  · next fc h => exact toByte_of_ofByte? h ▸ .decode fc
  · next h => exact .decodeInvalid arg h

theorem reading_readAbort (p : Ports) (arg : Byte) : Reading p (commandWord 0x08 arg) (readAbort arg) := by
  unfold readAbort
  split
  · next h => exact h ▸ .abortTransportError
  split
  · next h => exact h ▸ .abortTimeout
  split
  · next h => exact h ▸ .abortInvalidResponseLength
  · next h₁ h₂ h₃ => exact .abortIllegal arg (by simpa [abortCodes] using ⟨h₁, h₂, h₃⟩)

theorem Reading.of_word_eq {p : Ports} {v w : Word} {i : Instr} (h : Reading p v i) (e : v = w) : Reading p w i := e ▸ h

theorem reading_readReserved (p : Ports) {cw : Word} (h : 0x0A00 ≤ cw.toNat) : Reading p cw (readReserved cw) := by
  have hlt := cw.isLt
  unfold readReserved
  split
  · exact (Reading.illegalOpc0A0B _).of_word_eq (append_setWidth_low (n := 9) (by rw [BitVec.toNat_ofNat]; omega))
  split
  · exact (Reading.illegalOpc0C0F _).of_word_eq (append_setWidth_low (n := 10) (by rw [BitVec.toNat_ofNat]; omega))
  split
  · exact (Reading.illegalOpc101F _).of_word_eq (append_setWidth_low (n := 12) (by rw [BitVec.toNat_ofNat]; omega))
  split
  · exact (Reading.illegalOpc203F _).of_word_eq (append_setWidth_low (n := 13) (by rw [BitVec.toNat_ofNat]; omega))
  split
  · exact (Reading.illegalOpc407F _).of_word_eq (append_setWidth_low (n := 14) (by rw [BitVec.toNat_ofNat]; omega))
  · exact (Reading.illegalOpc80FF _).of_word_eq (append_setWidth_low (n := 15) (by rw [BitVec.toNat_ofNat]; omega))

/-- A reading of the one branch or of the other. -/
theorem Reading.ite {p : Ports} {cw : Word} {i j : Instr} {c : Prop} [Decidable c] (ht : c → Reading p cw i)
    (he : ¬c → Reading p cw j) : Reading p cw (if c then i else j) := by
  split
  · next h => exact ht h
  · next h => exact he h

/-- Every command word has a reading, the one that the decoder reads. -/
theorem reading_readCommand (c : Command) : Reading c.ports c.cw (readCommand c) := by
  obtain ⟨cw, p⟩ := c
  have hword {opc : Byte} (h : opcOf cw = opc) : commandWord opc (arg8Of cw) = cw := h ▸ commandWord_fields cw
  simp only [readCommand]
  refine .ite (fun h => (Reading.illegalOpc00 _).of_word_eq (hword h)) fun h₀ => ?_
  refine .ite (fun h => (Reading.crcInit _).of_word_eq (hword h)) fun h₁ => ?_
  refine .ite (fun h => (Reading.crcUpdate _).of_word_eq (hword h)) fun h₂ => ?_
  refine .ite (fun h => (Reading.crcCompute _).of_word_eq (hword h)) fun h₃ => ?_
  refine .ite (fun h => (Reading.crcVerify _).of_word_eq (hword h)) fun h₄ => ?_
  refine .ite (fun h => (reading_readResolve p _).of_word_eq (hword h)) fun h₅ => ?_
  refine .ite (fun h => (reading_readEncode p _).of_word_eq (hword h)) fun h₆ => ?_
  refine .ite (fun h => (reading_readDecode p _).of_word_eq (hword h)) fun h₇ => ?_
  refine .ite (fun h => (reading_readAbort p _).of_word_eq (hword h)) fun h₈ => ?_
  refine .ite (fun h => (Reading.reset _).of_word_eq (hword h)) fun h₉ => ?_
  have hfields := toNat_eq_opcOf_arg8Of cw
  exact reading_readReserved p (by bv_omega)

theorem readCommand_eq_readReserved {c : Command} (h : 0x0A00 ≤ c.cw.toNat) : readCommand c = readReserved c.cw := by
  have hf := toNat_eq_opcOf_arg8Of c.cw
  have ha := (arg8Of c.cw).isLt
  have hne (k : Nat) (hk : k < 0x0A) : opcOf c.cw ≠ BitVec.ofNat 8 k := by
    intro e
    rw [e, BitVec.toNat_ofNat] at hf
    omega
  simp [readCommand, hne]

/-- A word has one reading. -/
theorem Reading.readCommand_eq {p : Ports} {cw : Word} {i : Instr} (h : Reading p cw i) : readCommand ⟨cw, p⟩ = i := by
  cases h with
  | crcInit | crcUpdate | crcCompute | crcVerify | reset | illegalOpc00 => simp [readCommand]
  | resolve fc => rw [readCommand_resolve, readResolve_toByte]
  | resolveInvalid b hb => rw [readCommand_resolve]; simp [readResolve, hb]
  | encode fc => rw [readCommand_encode, readEncode_toByte]
  | encodeInvalid b hb => rw [readCommand_encode]; simp [readEncode, hb]
  | decode fc => rw [readCommand_decode, readDecode_toByte]
  | decodeInvalid b hb => rw [readCommand_decode]; simp [readDecode, hb]
  | abortTransportError | abortTimeout | abortInvalidResponseLength => rw [readCommand_abort]; rfl
  | abortIllegal code hc =>
    obtain ⟨h₁, h₂, h₃⟩ : code ≠ 1 ∧ code ≠ 2 ∧ code ≠ 3 := by simpa [abortCodes] using hc
    rw [readCommand_abort]; simp only [readAbort, h₁, h₂, h₃, if_false]
  | illegalOpc0A0B low | illegalOpc0C0F low | illegalOpc101F low | illegalOpc203F low | illegalOpc407F low
  | illegalOpc80FF low =>
    have hlow := low.isLt
    rw [readCommand_eq_readReserved (by simp only [toNat_append_eq_add, BitVec.toNat_ofNat]; omega)]
    simp (disch := simp only [toNat_append_eq_add, BitVec.toNat_ofNat]; omega) only
      [readReserved, if_pos, if_neg, BitVec.setWidth_append_eq_right]

theorem decode_eq_ok_iff_reading {c : Command} {i : Instr} :
    decode c = .ok i ↔ Reading c.ports c.cw i ∧ portError i = none :=
  decode_eq_ok.trans <| and_congr_left fun _ =>
    ⟨fun h => h ▸ reading_readCommand c, Reading.readCommand_eq⟩

/-! ### Port types -/

theorem wf_resolveOf (fc : Fc) (p : Ports) : (resolveOf fc p).wf = true ↔ portError (resolveOf fc p) = none := by
  cases fc <;> simp [resolveOf, Instr.wf, portError]

theorem wf_encodeOf (fc : Fc) (p : Ports) : (encodeOf fc p).wf = true ↔ portError (encodeOf fc p) = none := by
  cases fc <;> simp [encodeOf, Instr.wf, portError]

theorem wf_decodeOf (fc : Fc) (rx : List Byte) : (decodeOf fc rx).wf = true := by cases fc <;> rfl

theorem portError_decodeOf (fc : Fc) (rx : List Byte) : portError (decodeOf fc rx) = none := by cases fc <;> rfl

/-- Of what a word can stand for, the well-formed commands are those whose ports lie in their types. -/
theorem Reading.wf_iff {p : Ports} {cw : Word} {i : Instr} (h : Reading p cw i) : i.wf = true ↔ portError i = none := by
  cases h with
  | resolve fc => exact wf_resolveOf fc p
  | encode fc => exact wf_encodeOf fc p
  | decode fc => simp [wf_decodeOf, portError_decodeOf]
  | resolveInvalid b hb | encodeInvalid b hb | decodeInvalid b hb => simp [Instr.wf, portError, hb]
  | abortIllegal code hc => simpa [Instr.wf, portError] using hc
  | _ => simp [Instr.wf, portError]

/-- Ports within their types give no command a port error. -/
theorem Reading.portError_eq_none {p : Ports} {cw : Word} {i : Instr} (h : Reading p cw i) (hp : p.wf = true) :
    portError i = none := by
  obtain ⟨hbits, hwords⟩ : p.bits.length ≤ portMax ∧ p.words.length ≤ portMax := by simpa [Ports.wf] using hp
  cases h with
  | resolve fc | encode fc => cases fc <;> simp [resolveOf, encodeOf, portError, hbits, hwords]
  | decode fc => exact portError_decodeOf fc p.rx
  | _ => rfl

/-! ### The encoder's words and ports -/

theorem encode_resolveOf_cw (fc : Fc) (p : Ports) : (encode (resolveOf fc p)).cw = commandWord 0x05 fc.toByte := by
  cases fc <;> rfl

theorem encode_encodeOf_cw (fc : Fc) (p : Ports) : (encode (encodeOf fc p)).cw = commandWord 0x06 fc.toByte := by
  cases fc <;> rfl

theorem encode_decodeOf_cw (fc : Fc) (rx : List Byte) : (encode (decodeOf fc rx)).cw = commandWord 0x07 fc.toByte := by
  cases fc <;> rfl

theorem resolveOf_encode_ports (fc : Fc) (p : Ports) : resolveOf fc (encode (resolveOf fc p)).ports = resolveOf fc p := by
  cases fc <;> rfl

theorem encodeOf_encode_ports (fc : Fc) (p : Ports) : encodeOf fc (encode (encodeOf fc p)).ports = encodeOf fc p := by
  cases fc <;> rfl

theorem encode_decodeOf_rx (fc : Fc) (rx : List Byte) : (encode (decodeOf fc rx)).ports.rx = rx := by
  cases fc <;> rfl

theorem abort_of_family {i : Instr} (h : family i = .abort) :
    i = .abortTransportError ∨ i = .abortTimeout ∨ i = .abortInvalidResponseLength := by
  cases i <;> simp_all [family]

/-- The word of a well-formed command, with the ports of its encoding, stands for the command. -/
theorem reading_encode {i : Instr} (h : i.wf = true) : Reading (encode i).ports (encode i).cw i := by
  cases commandClass i with
  | crcInit arg => exact .crcInit arg
  | crcUpdate data => exact .crcUpdate data
  | crcCompute arg bytes => exact .crcCompute arg
  | crcVerify arg bytes rxcrc => exact .crcVerify arg
  | resolve fc p =>
    rw [encode_resolveOf_cw]
    simpa only [resolveOf_encode_ports] using Reading.resolve (p := (encode (resolveOf fc p)).ports) fc
  | encode fc p =>
    rw [encode_encodeOf_cw]
    simpa only [encodeOf_encode_ports] using Reading.encode (p := (encode (encodeOf fc p)).ports) fc
  | decode fc rx =>
    rw [encode_decodeOf_cw]
    simpa only [encode_decodeOf_rx] using Reading.decode (p := (encode (decodeOf fc rx)).ports) fc
  | resolveInvalid b => exact .resolveInvalid b (by simpa [Instr.wf] using h)
  | encodeInvalid b => exact .encodeInvalid b (by simpa [Instr.wf] using h)
  | decodeInvalid b => exact .decodeInvalid b (by simpa [Instr.wf] using h)
  | abort hf =>
    rcases abort_of_family hf with rfl | rfl | rfl
    · exact .abortTransportError
    · exact .abortTimeout
    · exact .abortInvalidResponseLength
  | reset arg => exact .reset arg
  | @illegal i hf =>
    cases i with
    | abortIllegal code => exact .abortIllegal code (by simpa [Instr.wf] using h)
    | illegalOpc00 arg => exact .illegalOpc00 arg
    | illegalOpc0A0B low => exact .illegalOpc0A0B low
    | illegalOpc0C0F low => exact .illegalOpc0C0F low
    | illegalOpc101F low => exact .illegalOpc101F low
    | illegalOpc203F low => exact .illegalOpc203F low
    | illegalOpc407F low => exact .illegalOpc407F low
    | illegalOpc80FF low => exact .illegalOpc80FF low
    | _ => cases hf

theorem decode_encode {i : Instr} (h : i.wf = true) : decode (encode i) = .ok i :=
  have hr := reading_encode h
  decode_eq_ok_iff_reading.mpr ⟨hr, hr.wf_iff.mp h⟩

/-- No bit of the word is lost. -/
theorem Reading.encode_cw {p : Ports} {cw : Word} {i : Instr} (h : Reading p cw i) : (Sys2Proof.encode i).cw = cw := by
  cases h with
  | resolve fc => exact encode_resolveOf_cw fc p
  | encode fc => exact encode_encodeOf_cw fc p
  | decode fc => exact encode_decodeOf_cw fc p.rx
  | _ => rfl

end Sys2Proof
end

section
/-! SUPPORT. Which ports a word's reading depends on (30_encoding.md rule R63), and which row of the opcode table a word
selects. -/

namespace Sys2Proof

open Sys2Proof.Machine Sys2Proof.Laws

/-! ### Words and ports -/

theorem decode_congr {c d : Command} (h : readCommand c = readCommand d) : decode c = decode d := by
  simp only [decode, h]

/-- A command reads the ports of 30_encoding.md rule R63 and no others: with the same values on the ports that the word `cw`
names, the word stands for the same command. -/
theorem Reading.congr {p q : Ports} {cw : Word} {i : Instr} (h : Reading p cw i)
    (hcompute : cw.toNat / 256 = 3 → q.bytes = p.bytes)
    (hverify : cw.toNat / 256 = 4 → q.bytes = p.bytes ∧ q.rxcrc = p.rxcrc)
    (hresolve : ∀ fc, cw = commandWord 0x05 (Fc.toByte fc) → resolveOf fc q = resolveOf fc p)
    (hencode : ∀ fc, cw = commandWord 0x06 (Fc.toByte fc) → encodeOf fc q = encodeOf fc p)
    (hdecode : cw.toNat / 256 = 7 → q.rx = p.rx) : Reading q cw i := by
  cases h with
  | crcCompute arg => rw [← hcompute (commandWord_toNat_div 0x03 arg)]; exact .crcCompute arg
  | crcVerify arg =>
    obtain ⟨hb, hr⟩ := hverify (commandWord_toNat_div 0x04 arg)
    rw [← hb, ← hr]; exact .crcVerify arg
  | resolve fc => rw [← hresolve fc rfl]; exact .resolve fc
  | encode fc => rw [← hencode fc rfl]; exact .encode fc
  | decode fc => rw [← hdecode (commandWord_toNat_div 0x07 _)]; exact .decode fc
  | _ => constructor <;> assumption

theorem decode_eq_of_reading {cw : Word} {p q : Ports} (h : Reading q cw (readCommand ⟨cw, p⟩)) :
    decode ⟨cw, q⟩ = decode ⟨cw, p⟩ := decode_congr h.readCommand_eq

/-- The command words of the functions `fcs` in the family of OPC `opc`. -/
def wordsOf (opc : Byte) (fcs : List Fc) : List Nat := fcs.map fun fc => (commandWord opc fc.toByte).toNat

/-- Ports that differ only for RESOLVE_LEN of the functions in `R` and ENCODE of those in `E` make no difference to another
word. The other hypotheses say that the two agree on the ports of CRC_COMPUTE, CRC_VERIFY and DECODE where the word is of
these families. -/
theorem decode_eq_of_ports_agree {cw : Word} {p q : Ports} (R E : List Fc)
    (hcw : cw.toNat ∉ wordsOf 0x05 R ++ wordsOf 0x06 E)
    (hR : ∀ fc, fc ∉ R → resolveOf fc q = resolveOf fc p := by intro fc; cases fc <;> simp [resolveOf])
    (hE : ∀ fc, fc ∉ E → encodeOf fc q = encodeOf fc p := by intro fc; cases fc <;> simp [encodeOf, Fc.all])
    (hcompute : cw.toNat / 256 = 3 → q.bytes = p.bytes := by exact fun _ => rfl)
    (hverify : cw.toNat / 256 = 4 → q.bytes = p.bytes ∧ q.rxcrc = p.rxcrc := by exact fun _ => ⟨rfl, rfl⟩)
    (hdecode : cw.toNat / 256 = 7 → q.rx = p.rx := by exact fun _ => rfl) : decode ⟨cw, q⟩ = decode ⟨cw, p⟩ := by
  obtain ⟨hcwR, hcwE⟩ := not_or.mp (mt List.mem_append.mpr hcw)
  refine decode_eq_of_reading ((reading_readCommand ⟨cw, p⟩).congr hcompute hverify (fun fc e => hR fc fun hfc => hcwR ?_)
    (fun fc e => hE fc fun hfc => hcwE ?_) hdecode)
  · exact List.mem_map.mpr ⟨fc, hfc, congrArg BitVec.toNat e.symm⟩
  · exact List.mem_map.mpr ⟨fc, hfc, congrArg BitVec.toNat e.symm⟩

/-! ### The opcode table -/

/-- A word lies in the row of the command it stands for. -/
theorem Reading.in_row {p : Ports} {cw : Word} {i : Instr} (h : Reading p cw i) :
    ∃ r, opcodeTable[rowOf i]? = some r ∧ rowMatches r cw = true := by
  have hrow : CommandWord.Statement i := by
    cases h with
    | crcInit arg => exact CommandWord.crcInit arg
    | crcUpdate data => exact CommandWord.crcUpdate data
    | crcCompute arg => exact CommandWord.crcCompute arg p.bytes
    | crcVerify arg => exact CommandWord.crcVerify arg p.bytes p.rxcrc
    | resolve fc => cases fc <;> exact ⟨_, rfl, by rw [encode_resolveOf_cw]; decide⟩
    | encode fc => cases fc <;> exact ⟨_, rfl, by rw [encode_encodeOf_cw]; decide⟩
    | decode fc => cases fc <;> exact ⟨_, rfl, by rw [encode_decodeOf_cw]; decide⟩
    | resolveInvalid b => exact CommandWord.resolveInvalid b
    | encodeInvalid b => exact CommandWord.encodeInvalid b
    | decodeInvalid b => exact CommandWord.decodeInvalid b
    | abortTransportError => exact CommandWord.abortTransportError
    | abortTimeout => exact CommandWord.abortTimeout
    | abortInvalidResponseLength => exact CommandWord.abortInvalidResponseLength
    | abortIllegal code => exact CommandWord.abortIllegal code
    | reset arg => exact CommandWord.reset arg
    | illegalOpc00 arg => exact CommandWord.illegalOpc00 arg
    | illegalOpc0A0B low => exact CommandWord.illegalOpc0A0B low
    | illegalOpc0C0F low => exact CommandWord.illegalOpc0C0F low
    | illegalOpc101F low => exact CommandWord.illegalOpc101F low
    | illegalOpc203F low => exact CommandWord.illegalOpc203F low
    | illegalOpc407F low => exact CommandWord.illegalOpc407F low
    | illegalOpc80FF low => exact CommandWord.illegalOpc80FF low
  obtain ⟨r, hr, hm⟩ := hrow
  exact ⟨r, hr, by simpa [rowMatches, h.encode_cw] using hm⟩

/-- The row of the command a word stands for does not depend on the ports. -/
theorem Reading.rowOf_eq {p : Ports} {cw : Word} {i : Instr} (h : Reading p cw i) (q : Ports) :
    rowOf i = rowOf (readCommand ⟨cw, q⟩) := by
  cases h with
  | resolve fc => rw [(Reading.resolve fc).readCommand_eq]; cases fc <;> rfl
  | encode fc => rw [(Reading.encode fc).readCommand_eq]; cases fc <;> rfl
  | decode fc => rw [(Reading.decode fc).readCommand_eq]; cases fc <;> rfl
  | crcCompute arg => rw [(Reading.crcCompute arg).readCommand_eq]; rfl
  | crcVerify arg => rw [(Reading.crcVerify arg).readCommand_eq]; rfl
  | _ => exact congrArg rowOf (Reading.readCommand_eq (by constructor <;> assumption)).symm

/-- The one word of a row whose mask fixes all bits stands for a command of that row. -/
theorem exact_rows_read : (opcodeTable.zipIdx.all fun b =>
    b.1.mask != 0xFFFF || rowOf (readCommand ⟨b.1.value, Ports.idle⟩) == b.2) = true := by decide +kernel

theorem rowOf_readCommand_of_exact {b : OpcodeRow × Nat} (hb : b ∈ opcodeTable.zipIdx) (hmask : b.1.mask = 0xFFFF) :
    rowOf (readCommand ⟨b.1.value, Ports.idle⟩) = b.2 := by
  simpa [hmask] using List.all_eq_true.mp exact_rows_read b hb

/-- Of two rows with a word in common, the second fixes all bits or fewer than the first. -/
theorem rows_nest : (opcodeTable.zipIdx.all fun a => opcodeTable.zipIdx.all fun b =>
    a.2 == b.2 || a.1.value &&& b.1.mask != b.1.value &&& a.1.mask || b.1.mask == 0xFFFF ||
      decide (maskBits b.1 < maskBits a.1)) = true := by decide +kernel

theorem exact_or_fewer_bits {a b : OpcodeRow × Nat} (ha : a ∈ opcodeTable.zipIdx) (hb : b ∈ opcodeTable.zipIdx)
    (hne : a.2 ≠ b.2) (hcommon : a.1.value &&& b.1.mask = b.1.value &&& a.1.mask) :
    b.1.mask = 0xFFFF ∨ maskBits b.1 < maskBits a.1 := by
  simpa [hne, hcommon] using List.all_eq_true.mp (List.all_eq_true.mp rows_nest a ha) b hb

theorem common_word {a b : OpcodeRow} {cw : Word} (ha : rowMatches a cw = true) (hb : rowMatches b cw = true) :
    a.value &&& b.mask = b.value &&& a.mask := by
  rw [← eq_of_beq ha, ← eq_of_beq hb, BitVec.and_assoc, BitVec.and_assoc, BitVec.and_comm a.mask]

theorem foldl_max_eq_of_mem {l : List Nat} {m : Nat} (hm : m ∈ l) (hle : ∀ n ∈ l, n ≤ m) : l.foldl max 0 = m := by
  rw [List.foldl_max, List.max?_eq_some_iff.mpr ⟨hm, hle⟩]
  exact Nat.zero_max m

theorem filter_eq_singleton {α : Type} [BEq α] [LawfulBEq α] {l : List α} (hl : l.Nodup) {a : α} (ha : a ∈ l) {f : α → Bool}
    (hf : ∀ b ∈ l, f b = (b == a)) : l.filter f = [a] := by
  rw [List.filter_congr hf, List.filter_beq, List.count_eq_one_of_mem hl ha, List.replicate_one]

/-- A row that a word lies in and that has more mask bits than every other such row is the one that wins. -/
theorem winningRows_eq_singleton {cw : Word} {k : Nat} {r : OpcodeRow} (hk : (r, k) ∈ opcodeTable.zipIdx)
    (hm : rowMatches r cw = true)
    (hbest : ∀ b ∈ opcodeTable.zipIdx, rowMatches b.1 cw = true → b.2 ≠ k → maskBits b.1 < maskBits r) :
    winningRows cw = [k] := by
  have honly : ∀ b ∈ opcodeTable.zipIdx, b.2 = k → b = (r, k) := by
    rintro ⟨q, j⟩ hb rfl
    simpa [List.mk_mem_zipIdx_iff_getElem?.mp hk] using (List.mk_mem_zipIdx_iff_getElem?.mp hb).symm
  have hmost : ((opcodeTable.zipIdx.filter fun b => rowMatches b.1 cw).map fun b => maskBits b.1).foldl max 0 =
      maskBits r := by
    refine foldl_max_eq_of_mem (List.mem_map.mpr ⟨(r, k), List.mem_filter.mpr ⟨hk, hm⟩, rfl⟩) fun n hn => ?_
    obtain ⟨b, hb, rfl⟩ := List.mem_map.mp hn
    obtain ⟨hb, hbm⟩ := List.mem_filter.mp hb
    by_cases hbk : b.2 = k
    · rw [honly b hb hbk]
    · exact (hbest b hb hbm hbk).le
  have hwin : ∀ b ∈ opcodeTable.zipIdx, (maskBits b.1 == maskBits r && rowMatches b.1 cw) = (b == (r, k)) := by
    intro b hb
    by_cases hbk : b.2 = k
    · simp [honly b hb hbk, hm]
    · have hne : b ≠ (r, k) := fun e => hbk (congrArg Prod.snd e)
      cases hbm : rowMatches b.1 cw with
      | false => simp [hne]
      | true => simp [hne, (hbest b hb hbm hbk).ne]
  have hnodup : opcodeTable.zipIdx.Nodup := (List.nodup_zipIdx_map_snd _).of_map
  simp only [winningRows, hmost, List.filter_filter, filter_eq_singleton hnodup hk hwin, List.map_cons, List.map_nil]

theorem Reading.winningRows_eq {p : Ports} {cw : Word} {i : Instr} (h : Reading p cw i) : winningRows cw = [rowOf i] := by
  obtain ⟨r, hr, hm⟩ := h.in_row
  have hmem : (r, rowOf i) ∈ opcodeTable.zipIdx := List.mk_mem_zipIdx_iff_getElem?.mpr hr
  refine winningRows_eq_singleton hmem hm fun b hb hbm hne => ?_
  rcases exact_or_fewer_bits hmem hb hne.symm (common_word hm hbm) with hexact | hlt
  · have hword : cw = b.1.value := by
      rw [← eq_of_beq hbm, hexact]
      exact BitVec.and_allOnes.symm
    exact absurd (rowOf_readCommand_of_exact hb hexact).symm (by rwa [← hword, ← h.rowOf_eq])
  · exact hlt

end Sys2Proof
end

section
/-! SUPPORT. What ENCODE and DECODE answer in a transaction: a DECODE against the request that CTX describes never stops the
block. XACT as one command after ENCODE, and as the host protocol runs it (30_encoding.md rule R79). -/

namespace Sys2Proof.Machine

/-! ### ENCODE and ABORT of a transaction -/

/-- The state after ENCODE of a valid request of function `fc` with `p` on the ports (41_frame_encoder.md rule R122). -/
def latched (fc : Fc) (p : Ports) (s : State) : State :=
  latchRequest fc p.unit (bodyOf fc p) (countOf fc p) (BitVec.ofNat 16 (expLen fc p)) s

@[simp] theorem latched_phase (fc : Fc) (p : Ports) (s : State) : (latched fc p s).status.phase = .built := rfl
@[simp] theorem latched_valid (fc : Fc) (p : Ports) (s : State) : (latched fc p s).ctx.valid = true := rfl

theorem latched_inv {fc : Fc} {p : Ports} {s : State} (h : requestValid s.config fc p = true) : (latched fc p s).Inv :=
  latchRequest_inv h

theorem latched_contextDescribes {fc : Fc} {p : Ports} {s : State} (h : requestValid s.config fc p = true) :
    ContextDescribes (latched fc p s) fc := latchRequest_contextDescribes h

theorem issue_encodeOf_valid {fc : Fc} {p : Ports} {s : State} (h : requestValid s.config fc p = true) :
    issue (encodeOf fc p) s = some (latched fc p s) :=
  issue_eq_some.mpr ((exec_encodeOf fc p s).trans (encodeRequest_valid h))

theorem issue_encodeOf_invalid {fc : Fc} {p : Ports} {s : State} (h : requestValid s.config fc p = false) :
    issue (encodeOf fc p) s = some (refuseRequest s) :=
  issue_eq_some.mpr ((exec_encodeOf fc p s).trans (encodeRequest_invalid h))

theorem abortWith_valid {e : ErrCode} {s : State} (h : s.ctx.valid = true) :
    abortWith e s = .next (recordFailure e .ok s) := if_neg (by simp [h])

/-! ### DECODE against its own request -/

theorem responseLength_pos (fc : Fc) (n : Nat) : 5 ≤ responseLengthOf fc n := by
  cases fc <;> dsimp only [responseLengthOf] <;> omega

theorem extractAt_readable {rx : List Byte} {i n : Nat} (h : i + n ≤ rx.length) (read : List Byte → DecodeResult) :
    extractAt rx i n read ≠ .unreadable := by
  simp [extractAt, memRead_of_le h]

theorem extractReg_readable {rx : List Byte} (h : 5 ≤ rx.length) : extractReg rx ≠ .unreadable := by
  have hm := memRead_of_le (buf := rx) (i := 3) (n := 2) h
  obtain ⟨high, low, hd⟩ := List.length_eq_two.mp (memRead_length hm)
  simp [extractReg, hm, hd]

theorem extractStatus_readable {rx : List Byte} (h : 3 ≤ rx.length) : extractStatus rx ≠ .unreadable := by
  have hm := memRead_of_le (buf := rx) (i := 2) (n := 1) h
  obtain ⟨e, hd⟩ := List.length_eq_one_iff.mp (memRead_length hm)
  simp [extractStatus, hm, hd]

theorem extractEcho_readable {s : State} {rx : List Byte} (h : 6 ≤ rx.length) (hs : 6 ≤ s.txbuf.length) :
    extractEcho s rx ≠ .unreadable := by
  rw [extractEcho, memRead_of_le (by omega), memRead_of_le (by omega)]
  dsimp only
  split <;> simp

/-- A response of the expected length holds every byte that the extraction reads (43_response_decoder.md rules R172 to R181). -/
theorem ContextDescribes.extraction_readable {s : State} {fc : Fc} (h : ContextDescribes s fc) {rx : List Byte}
    (hl : rx.length = s.ctx.explen.toNat) : extractionOf fc s rx ≠ .unreadable := by
  rw [h.explen] at hl
  have htx := h.length
  cases fc with
  | rc | rdi | rir | diag => exact extractAt_readable (by simp only [responseLengthOf] at hl; omega) _
  | rhr => exact extractReg_readable (by simp only [responseLengthOf] at hl; omega)
  | res => exact extractStatus_readable (by simp only [responseLengthOf] at hl; omega)
  | wsc | wsr | wmc | wmr =>
    exact extractEcho_readable (by simp only [responseLengthOf] at hl; omega)
      (by simp only [requestLengthOf] at htx; omega)

theorem resultFits_ne_none {fc : Fc} {n : Nat} {r : DecodeResult} (h : resultFits fc n r) : r ≠ .none := by
  rintro rfl
  cases fc <;> simp [resultFits] at h

/-- How a DECODE of the outstanding request ends (43_response_decoder.md rule R171): with a result, or FAILED without one. -/
def ResponseJudged (t : State) : Prop :=
  (t.status.phase = .decoded ∧ t.result ≠ .none) ∨
  (t.status.phase = .failed ∧ t.result = .none ∧
    t.status.err ∈ [.invalidResponseLength, .checksumMismatch, .echoMismatch])

/-- DECODE against the request that CTX describes answers a state, whatever the response. -/
theorem ContextDescribes.decode_judged {s : State} {fc : Fc} (h : ContextDescribes s fc) (hv : s.ctx.valid = true)
    (rx : List Byte) : ∃ t, exec (decodeOf fc rx) s = .next t ∧ ResponseJudged t := by
  rw [exec_decodeOf]
  generalize heq : decodeResponse fc rx (extractionOf fc s rx) s = o
  rcases decodeResponse_cases heq with ⟨hbad | hbad, -⟩ | ⟨-, -, ⟨-, ho⟩ | ⟨hl, ⟨hr, -⟩ | ⟨_, -, -, ho⟩ | ⟨-, ho⟩⟩⟩
  · simp [hv] at hbad
  · exact absurd h.code.symm hbad
  · exact ⟨_, ho, .inr ⟨rfl, rfl, by simp⟩⟩
  · have hlen : 2 ≤ rx.length := by
      have := responseLength_pos fc s.ctx.count.toNat
      rw [hl, h.explen]; omega
    obtain ⟨v, hsome⟩ := receivedCrc_isSome hlen
    simp [hsome] at hr
  · exact ⟨_, ho, .inr ⟨rfl, rfl, by simp⟩⟩
  · rcases finishDecode_cases ho.symm with ⟨r, hr, ho⟩ | ⟨-, ho⟩ | ⟨hu, -⟩
    · exact ⟨_, ho, .inl ⟨rfl, resultFits_ne_none (resultFits_of_extractionOf hr)⟩⟩
    · exact ⟨_, ho, .inr ⟨rfl, rfl, by simp⟩⟩
    · exact absurd hu (h.extraction_readable hl)

/-! ### XACT -/

/-- The command that ends a transaction whose request was built, by what the transport answered (30_encoding.md rule R79). -/
def closingCommand (fc : Fc) : WriteOutcome → ReadOutcome → Instr
  | .transportError, _ => .abortTransportError
  | .done, .bytes rx => decodeOf fc rx
  | .done, .short => .abortInvalidResponseLength
  | .done, .timeout => .abortTimeout
  | .done, .transportError => .abortTransportError

theorem xact_invalid {fc : Fc} {p : Ports} {s : State} (h : requestValid s.config fc p = false) (w : WriteOutcome)
    (r : ReadOutcome) : xact fc p w r s = some (refuseRequest s) := by
  simp [xact, issue_encodeOf_invalid h]

theorem xact_valid {fc : Fc} {p : Ports} {s : State} (h : requestValid s.config fc p = true) (w : WriteOutcome)
    (r : ReadOutcome) : xact fc p w r s = issue (closingCommand fc w r) (latched fc p s) := by
  simp only [xact, issue_encodeOf_valid h, Option.bind_some, latched_phase, ne_eq, not_true, if_false]
  cases w <;> cases r <;> rfl

theorem xact_valid_eq_some {fc : Fc} {p : Ports} {s t : State} {w : WriteOutcome} {r : ReadOutcome}
    (h : requestValid s.config fc p = true) :
    xact fc p w r s = some t ↔ exec (closingCommand fc w r) (latched fc p s) = .next t := by
  rw [xact_valid h, issue_eq_some]

/-- After a failed write or read of a built request, XACT ends FAILED with the code the host reports. -/
theorem xact_aborted {fc : Fc} {p : Ports} {s : State} {w : WriteOutcome} {r : ReadOutcome} {e : ErrCode}
    (h : requestValid s.config fc p = true)
    (hc : exec (closingCommand fc w r) (latched fc p s) = abortWith e (latched fc p s)) :
    xact fc p w r s = some (recordFailure e .ok (latched fc p s)) := by
  rw [xact_valid h, issue_eq_some, hc, abortWith_valid (latched_valid fc p s)]

/-! ### The host protocol's events -/

theorem Transaction.encodeNew_valid {x : Transaction} {fc : Fc} {p : Ports} (h : requestValid x.block.config fc p = true) :
    x.encodeNew fc p = some { phase := .sending, fc := fc, rx := [], resent := false, block := latched fc p x.block } := by
  simp [Transaction.encodeNew, Transaction.judge, issue_encodeOf_valid h]

theorem Transaction.encodeNew_invalid {x : Transaction} {fc : Fc} {p : Ports} (h : requestValid x.block.config fc p = false) :
    x.encodeNew fc p = some { phase := .failed, fc := fc, rx := [], resent := false, block := refuseRequest x.block } := by
  simp [Transaction.encodeNew, Transaction.judge, issue_encodeOf_invalid h]

theorem Transaction.advance_request {x : Transaction} (h : x.phase.outstanding = false) (fc : Fc) (p : Ports) :
    x.advance (.request fc p) = x.encodeNew fc p := by
  simp [Transaction.advance, Transaction.start, h]

/-- A command driven or judged by the host does to the block what it does alone. -/
theorem Transaction.drive_map_block (x : Transaction) (i : Instr) (phase : HostPhase) :
    (x.drive i phase).map Transaction.block = issue i x.block := by
  simp [Transaction.drive, Function.comp_def]

theorem Transaction.judge_map_block (x : Transaction) (i : Instr) (good : Phase) (phase : HostPhase) :
    (x.judge i good phase).map Transaction.block = issue i x.block := by
  simp [Transaction.judge, Function.comp_def]

/-- The host validates the bytes it has read, and a transaction without any is at its end. -/
def Transaction.conclude (x : Transaction) : Option Transaction :=
  if x.phase = .validating then x.advance .validate else some x

/-- What the host does with a request on its way: write, settle, read, and validate what was read. -/
def Transaction.deliver (x : Transaction) (r : ReadOutcome) : Option Transaction :=
  (x.advance (.written .done)).bind fun y => (y.advance .settled).bind fun y =>
    (y.advance (.read r)).bind Transaction.conclude

/-- A transaction that the host drives into FAILED is not validated. -/
theorem Transaction.drive_failed_bind_conclude (x : Transaction) (i : Instr) :
    (x.drive i .failed).bind conclude = x.drive i .failed := by
  cases hi : issue i x.block <;> simp [drive, conclude, hi]

theorem Transaction.deliver_map_block {x : Transaction} (h : x.phase = .sending) (r : ReadOutcome) :
    (x.deliver r).map Transaction.block = issue (closingCommand x.fc .done r) x.block := by
  cases r with
  | bytes rx => simp [deliver, advance, h, conclude, judge_map_block, closingCommand]
  | short | timeout | transportError =>
    simp only [deliver, advance, h, if_true, Option.bind_some, readFailure, drive_failed_bind_conclude, drive_map_block,
      closingCommand]

end Sys2Proof.Machine
end

section
/-! SUPPORT. A run of presented commands that the encoder made. -/

namespace Sys2Proof.Machine

/-- A step consumes a presented command that is the encoding of a well-formed one, and executes it. -/
theorem step_encode {s : State} {i : Instr} {rest : List Command} (h : s.commands = encode i :: rest) (hi : i.wf = true) :
    step s = exec i { s with commands := rest } := step_decoded h (decode_encode hi)

/-- One CRC_UPDATE per byte folds the bytes into ACC (40_crc.md rule R104), from a state whose CST is 0 already. -/
theorem run_crcUpdates (bytes : List Byte) (rest : List Command) (a : Word) (s : State) :
    Host.Core.run Sys2Proof.core bytes.length
        (complete { s with acc := a, commands := bytes.map (fun b => encode (.crcUpdate b)) ++ rest }) =
      .next (complete { s with acc := bytes.foldl crcStep a, commands := rest }) := by
  induction bytes generalizing a with
  | nil => rfl
  | cons b bs ih => exact (run_succ (step_encode (i := .crcUpdate b) rfl rfl)).trans (ih (crcStep a b))

end Sys2Proof.Machine
end

section
/-! The obligations of the encoding, each from the lemmas above. -/

namespace Sys2Proof.Proofs

open Sys2Proof.Machine

/-- Settles O43: the encoded word has a reading, and a word has no other. -/
theorem decodeInvertsEncode : Obligations.DecodeInvertsEncode := fun _ h => decode_encode h

/-- Settles O53: a request that is refused or aborted is FAILED, and a DECODE against the built one ends either way. -/
theorem transactionEndsDecodedOrFailed : Obligations.TransactionEndsDecodedOrFailed := by
  intro fc p w r s hs
  cases hv : requestValid s.config fc p with
  | false => exact ⟨_, xact_invalid hv w r, refuseRequest_inv s, by simp⟩
  | true =>
    have hinv := latched_inv hv
    cases w with
    | transportError => exact ⟨_, xact_aborted hv rfl, hinv.recordFailure (by decide), by simp⟩
    | done =>
      cases r with
      | bytes rx =>
        obtain ⟨t, ht, hj⟩ := (latched_contextDescribes hv).decode_judged rfl rx
        exact ⟨t, (xact_valid_eq_some hv).mpr ht, exec_inv ht hinv, by simpa [ResponseJudged] using hj⟩
      | short | timeout | transportError => exact ⟨_, xact_aborted hv rfl, hinv.recordFailure (by decide), by simp⟩

/-- Settles O9: CRC_INIT is the first step, and each later one folds a byte. -/
theorem crcPseudoEqualsCompute : Obligations.CrcPseudoEqualsCompute := by
  intro bytes rest s h
  exact (run_succ (step_encode h rfl)).trans (run_crcUpdates bytes rest crcInitial s)

/-- Settles O44: both halves hold of every reading. -/
theorem decodingLosesNoBitOfTheWord : Obligations.DecodingLosesNoBitOfTheWord := by
  intro c i h
  obtain ⟨hr, hp⟩ := decode_eq_ok_iff_reading.mp h
  exact ⟨hr.wf_iff.mpr hp, hr.encode_cw⟩

/-- Settles O45: the port table of 30_encoding.md rule R63, RESOLVE_LEN's functions first and ENCODE's second in each row. -/
theorem portsAreReadOnlyWhereNamed : Obligations.PortsAreReadOnlyWhereNamed := fun cw p =>
  ⟨fun v h => decode_eq_of_ports_agree [] Fc.all fun hm => h <| by
      obtain ⟨fc, -, e⟩ := List.mem_map.mp hm
      exact e ▸ commandWord_toNat_div 0x06 fc.toByte,
   fun v h => decode_eq_of_ports_agree [] [.rc, .rdi, .rhr, .rir, .wsc, .wsr, .wmc, .wmr] h,
   fun v h => decode_eq_of_ports_agree [.rc, .rdi, .rir] [.rc, .rdi, .rir] h,
   fun v h => decode_eq_of_ports_agree [] [.wsc] (mt List.mem_singleton.mp h),
   fun v h => decode_eq_of_ports_agree [] [.wsr] (mt List.mem_singleton.mp h),
   fun v h => decode_eq_of_ports_agree [.wmc] [.wmc] h,
   fun v h => decode_eq_of_ports_agree [.wmr] [.wmr] h,
   fun v h₃ h₄ h => decode_eq_of_ports_agree [.diag] [.diag] h (hcompute := (absurd · h₃)) (hverify := (absurd · h₄)),
   fun v h => decode_eq_of_ports_agree [] [] List.not_mem_nil (hverify := (absurd · h)),
   fun v h => decode_eq_of_ports_agree [] [] List.not_mem_nil (hdecode := (absurd · h))⟩

/-- Settles O46: a reading's row beats every other row that the word lies in. -/
theorem opcodeTableSelectsTheDecodedRow : Obligations.OpcodeTableSelectsTheDecodedRow := fun c =>
  (reading_readCommand c).winningRows_eq

/-- Settles O57: a refused request on both sides, or the same closing command on both. -/
theorem xactIsTheHostProtocol : Obligations.XactIsTheHostProtocol := by
  intro x fc p hx
  rw [Transaction.advance_request hx]
  cases hv : requestValid x.block.config fc p with
  | false => simp [xact_invalid hv, Transaction.encodeNew_invalid hv]
  | true =>
    rw [Transaction.encodeNew_valid hv]
    refine ⟨fun r => ?_, fun r => ?_⟩
    · simp [xact_valid hv, Transaction.advance, Transaction.drive_map_block, closingCommand]
    · rw [xact_valid hv]
      exact (Transaction.deliver_map_block (x := ⟨.sending, fc, [], false, latched fc p x.block⟩) rfl r).symm

/-- Settles O47: each word evaluated. -/
theorem wordsOfTheSpecDecode : Obligations.WordsOfTheSpecDecode := by
  refine ⟨?_, ?_, ?_, ?_, ?_, ?_, ?_, ?_, ?_, ?_⟩ <;> rfl

/-- Settles O49: every word has a reading, and ports within their types give it no error. -/
theorem everyCommandWordDecodes : Obligations.EveryCommandWordDecodes := fun c hc =>
  have hr := reading_readCommand c
  ⟨readCommand c, decode_eq_ok_iff_reading.mpr ⟨hr, hr.portError_eq_none hc⟩⟩

end Sys2Proof.Proofs
end

section
/-! SUPPORT. The CRC step (40_crc.md rule R100) as a function of the accumulator and of the byte: it is injective in each, and it
shifts out a low byte that the data byte cancels. -/

namespace Sys2Proof.Machine

/-! ### One shift, and k of them -/

theorem repeatTimes_eq_iterate (k : Nat) (body : Word → Word) (a : Word) : repeatTimes k body a = body^[k] a := by
  induction k generalizing a with
  | zero => rfl
  | succ k ih => exact ih (body a)

theorem crcShift_of_even {a : Word} (h : a.getLsbD 0 = false) : crcShift a = a >>> 1 := if_neg (Bool.eq_false_iff.mp h)

theorem crcShift_of_odd {a : Word} (h : a.getLsbD 0 = true) : crcShift a = (a >>> 1) ^^^ 0xA001#16 := if_pos h

/-- The top bit after a shift is the bit that the shift tested: the logical shift clears it, and 0xA001 sets it. -/
theorem crcShift_getLsbD_15 (a : Word) : (crcShift a).getLsbD 15 = a.getLsbD 0 := by
  cases h : a.getLsbD 0 with
  | false => simp [crcShift_of_even h]
  | true => simp [crcShift_of_odd h]

/-- No two accumulators shift to the same one: the top bit says which was odd, and the shift keeps the other bits. -/
theorem crcShift_injective : Function.Injective crcShift := by
  intro a b h
  have hbit : a.getLsbD 0 = b.getLsbD 0 := by rw [← crcShift_getLsbD_15 a, h, crcShift_getLsbD_15]
  have hrest : a >>> 1 = b >>> 1 := by
    cases hb : b.getLsbD 0 with
    | false => rwa [crcShift_of_even (hbit.trans hb), crcShift_of_even hb] at h
    | true =>
      rw [crcShift_of_odd (hbit.trans hb), crcShift_of_odd hb] at h
      exact (BitVec.xor_left_inj _).mp h
  apply BitVec.eq_of_getLsbD_eq
  intro i _
  cases i with
  | zero => exact hbit
  | succ i => simpa [Nat.add_comm] using congrArg (BitVec.getLsbD · i) hrest

/-- Zeros below bit `k` are shifted out, and no shift XORs. -/
theorem iterate_crcShift_of_low_zero {k : Nat} {a : Word} (h : ∀ i < k, a.getLsbD i = false) : crcShift^[k] a = a >>> k := by
  induction k generalizing a with
  | zero => simp
  | succ k ih =>
    have hshifted : ∀ i < k, (a >>> 1).getLsbD i = false := fun i hi => by
      simpa [Nat.add_comm] using h (i + 1) (Nat.succ_lt_succ hi)
    rw [Function.iterate_succ_apply, crcShift_of_even (h 0 k.succ_pos), ih hshifted, ← BitVec.shiftRight_add, Nat.add_comm]

/-! ### One byte -/

theorem crcStep_eq_iterate (a : Word) (b : Byte) : crcStep a b = crcShift^[8] (a ^^^ b.setWidth 16) :=
  repeatTimes_eq_iterate 8 crcShift _

theorem crcStep_left_injective (b : Byte) : Function.Injective (crcStep · b) := by
  intro a c h
  simp only [crcStep_eq_iterate] at h
  exact (BitVec.xor_left_inj _).mp (crcShift_injective.iterate 8 h)

theorem crcStep_right_injective (a : Word) : Function.Injective (crcStep a) := by
  intro b c h
  simp only [crcStep_eq_iterate] at h
  have hext : b.setWidth 16 = c.setWidth 16 := (BitVec.xor_right_inj _).mp (crcShift_injective.iterate 8 h)
  simpa using congrArg (BitVec.setWidth 8) hext

/-- A step with the accumulator's own low byte leaves the high byte, shifted down. -/
theorem crcStep_lo8 (a : Word) : crcStep a (lo8 a) = (hi8 a).setWidth 16 := by
  have hlow : ∀ i < 8, (a ^^^ (lo8 a).setWidth 16).getLsbD i = false := fun i hi => by
    simp [lo8, hi, show i < 16 by omega]
  rw [crcStep_eq_iterate, iterate_crcShift_of_low_zero hlow]
  apply BitVec.eq_of_getLsbD_eq
  intro i hi
  by_cases h : i < 8
  · simp [lo8, hi8, hi, h]
  · simp [lo8, hi8, hi, h, BitVec.getLsbD_of_ge a (8 + i) (by omega)]

theorem crcStep_self (b : Byte) : crcStep (b.setWidth 16) b = 0 := by
  rw [crcStep_eq_iterate, BitVec.xor_self, iterate_crcShift_of_low_zero (by simp)]
  simp

/-! ### A sequence -/

theorem crc_append (bytes more : List Byte) : crc (bytes ++ more) = more.foldl crcStep (crc bytes) := List.foldl_append

theorem foldl_crcStep_injective (bytes : List Byte) : Function.Injective (bytes.foldl crcStep) := by
  induction bytes with
  | nil => exact Function.injective_id
  | cons b bs ih => exact ih.comp (crcStep_left_injective b)

/-- A byte changed anywhere changes the accumulator, and no later byte brings the two together again. -/
theorem foldl_crcStep_modify_ne {f : Byte → Byte} (hf : ∀ b, f b ≠ b) {bytes : List Byte} {k : Nat} (hk : k < bytes.length)
    (a : Word) : (bytes.modify k f).foldl crcStep a ≠ bytes.foldl crcStep a := by
  induction bytes generalizing k a with
  | nil => exact absurd hk k.not_lt_zero
  | cons b bs ih =>
    cases k with
    | zero => exact fun h => hf b (crcStep_right_injective a (foldl_crcStep_injective bs h))
    | succ k => exact ih (Nat.lt_of_succ_lt_succ hk) (crcStep a b)

theorem xor_bit_ne (b : Byte) {j : Nat} (hj : j < 8) : b ^^^ (1#8 <<< j) ≠ b := by
  intro h
  have hzero : 1#8 <<< j = 0#8 := by simpa using congrArg (b ^^^ ·) h
  simpa [hj] using congrArg (BitVec.getLsbD · j) hzero

/-! ### Bytes on the wire -/

theorem lo8_eq_ofNat (v : Word) : lo8 v = BitVec.ofNat 8 (v.toNat % 256) := by
  apply BitVec.eq_of_toNat_eq
  simp [lo8]

theorem hi8_eq_ofNat (v : Word) : hi8 v = BitVec.ofNat 8 (v.toNat / 256) := by
  apply BitVec.eq_of_toNat_eq
  simp [hi8, Nat.shiftRight_eq_div_pow]

theorem joinBytes_toNat (high low : Byte) : (joinBytes high low).toNat = low.toNat + 256 * high.toNat := by
  rw [joinBytes, toNat_append_eq_add]
  omega

theorem crcValid_append (bytes : List Byte) (low high : Byte) :
    crcValid (bytes ++ [low, high]) = true ↔ joinBytes high low = crc bytes := by
  simp [crcValid, receivedCrc_append, coveredBytes_append]

end Sys2Proof.Machine
end

section
/-! The obligations of the CRC family, each from the lemmas above. -/

namespace Sys2Proof.Proofs

open Sys2Proof.Machine Sys2Proof.Claims

/-- The claims' word of an OPC and an ARG8 is the decoder's (30_encoding.md rule R77). -/
theorem word_eq_commandWord (opc arg : Byte) : word opc.toNat arg = commandWord opc arg := by
  apply BitVec.eq_of_toNat_eq
  rw [word, commandWord, toNat_append_eq_add, BitVec.toNat_ofNat]
  omega

/-- A word of the CRC family is decoded whatever its ports hold. -/
theorem decode_word {opc arg : Byte} {ports : Ports} {i : Instr} (h : Reading ports (commandWord opc arg) i)
    (hp : portError i = none) {n : Nat} (hn : opc.toNat = n) : decode ⟨word n arg, ports⟩ = .ok i :=
  hn ▸ word_eq_commandWord opc arg ▸ decode_eq_ok_iff_reading.mpr ⟨h, hp⟩

/-- Settles O1: CRC_INIT's reading and its meaning. -/
theorem crcInitSetsAccumulator : Obligations.CrcInitSetsAccumulator := fun arg _ _ =>
  ⟨decode_word (.crcInit arg) rfl rfl, rfl⟩

/-- Settles O2: the accumulators are the iterates of one shift. -/
theorem crcUpdateFoldsOneByte : Obligations.CrcUpdateFoldsOneByte := fun data _ s =>
  ⟨decode_word (.crcUpdate data) rfl rfl, fun k => crcShift^[k] (s.acc ^^^ data.setWidth 16), rfl,
    fun _ _ => Function.iterate_succ_apply' crcShift _ _, rfl⟩

/-- Settles O3: the CRC is a fold, which takes its last byte last. -/
theorem crcComputeFoldsEveryByte : Obligations.CrcComputeFoldsEveryByte :=
  ⟨rfl, fun bytes b => crc_append bytes [b], fun arg _ _ => ⟨decode_word (.crcCompute arg) rfl rfl, rfl⟩⟩

/-- Settles O4: only the private accumulator is not fixed, and it holds the CRC. -/
theorem crcVerifyOnlyWritesVfy : Obligations.CrcVerifyOnlyWritesVfy := fun arg _ _ =>
  ⟨decode_word (.crcVerify arg) rfl rfl, _, rfl⟩

/-- Settles O5: the CRC's two bytes are its digits in base 256, the low one first. -/
theorem frameCrcStandsLowByteFirst : Obligations.FrameCrcStandsLowByteFirst := by
  refine ⟨fun bytes => by rw [withCrc, lo8_eq_ofNat, hi8_eq_ofNat], fun bytes low high => ?_⟩
  rw [crcValid_append, ← joinBytes_toNat, BitVec.toNat_inj, eq_comm]

/-- Settles O6: the low byte leaves the high byte in the accumulator, and the high byte cancels it. -/
theorem crcResidueIsZero : Obligations.CrcResidueIsZero := fun bytes =>
  calc crc (withCrc bytes)
    _ = crcStep (crcStep (crc bytes) (lo8 (crc bytes))) (hi8 (crc bytes)) := crc_append bytes _
    _ = 0 := by rw [crcStep_lo8, crcStep_self]

/-- Settles O7: the flipped byte is another byte, and every step is injective. -/
theorem crcChangesWithEverySingleBit : Obligations.CrcChangesWithEverySingleBit := fun _ _ _ hk hj =>
  foldl_crcStep_modify_ne (fun b => xor_bit_ne b hj) hk crcInitial

/-- Settles O8: ACC holds the CRC that CRC_VERIFY computes again. -/
theorem crcVerifyAcceptsComputedCrc : Obligations.CrcVerifyAcceptsComputedCrc := by
  intro x y bytes s t h
  cases h
  exact ⟨_, rfl, beq_self_eq_true (crc bytes), rfl⟩

end Sys2Proof.Proofs
end

section
/-! SUPPORT. ENCODE by its limits: which requests it accepts (41_frame_encoder.md rule R120), and the state it answers either
way (rule R122). -/

namespace Sys2Proof.Machine

open Sys2Proof.Claims

/-! ### The limits of a request -/

/-- What `valid` asks of a function's operands at a MAX_ADU (41_frame_encoder.md rule R120): of the two lengths the longer one
decides, and the fixed requests fit every legal MAX_ADU. -/
def WithinLimits (maxAdu : Nat) : Fc → Ports → Prop
  | .rc, p | .rdi, p => 1 ≤ p.count.toNat ∧ 5 + ceil8 p.count.toNat ≤ maxAdu
  | .rir, p => 1 ≤ p.count.toNat ∧ 5 + 2 * p.count.toNat ≤ maxAdu
  | .rhr, _ | .wsc, _ | .wsr, _ | .res, _ => True
  | .diag, p => 6 + p.bytes.length ≤ maxAdu
  | .wmc, p => 1 ≤ p.bits.length ∧ ceil8 p.bits.length ≤ 255 ∧ 9 + ceil8 p.bits.length ≤ maxAdu
  | .wmr, p => 1 ≤ p.words.length ∧ 2 * p.words.length ≤ 255 ∧ 9 + 2 * p.words.length ≤ maxAdu

theorem requestValid_iff_withinLimits (cfg : Config) (fc : Fc) (p : Ports) :
    requestValid cfg fc p = true ↔ WithinLimits cfg.maxAdu fc p := by
  have hmin := cfg.legal.1
  rw [requestValid_iff]
  cases fc with
  | rhr | wsc | wsr | res => simp only [countAllowed, reqLen, expLen, WithinLimits, true_and, iff_true]; omega
  | rc | rdi | rir => simp only [countAllowed, reqLen, expLen, WithinLimits, decide_eq_true_eq]; omega
  | diag => simp only [countAllowed, reqLen, expLen, WithinLimits, true_and, and_self]
  | wmc | wmr => simp only [countAllowed, reqLen, expLen, WithinLimits, decide_eq_true_eq]; omega

/-! ### The answers of ENCODE -/

theorem latched_eq_built (fc : Fc) (p : Ports) (s : State) :
    latched fc p s =
      built s fc.toByte p.unit (countOf fc p) (expLen fc p) (bodyOf fc p) (crc (bodyOf fc p)) := rfl

theorem refuseRequest_eq_refused (s : State) :
    refuseRequest s = refused s (freeCtx s.draws) crcInitial (s.draws + 1) := rfl

theorem exec_encodeOf_valid {fc : Fc} {p : Ports} {s : State} (h : requestValid s.config fc p = true) :
    exec (encodeOf fc p) s = .next (latched fc p s) := (exec_encodeOf fc p s).trans (encodeRequest_valid h)

theorem exec_encodeOf_invalid {fc : Fc} {p : Ports} {s : State} (h : requestValid s.config fc p = false) :
    exec (encodeOf fc p) s = .next (refuseRequest s) := (exec_encodeOf fc p s).trans (encodeRequest_invalid h)

/-- ENCODE builds a request within its limits; of a fixed request that is every one. -/
theorem exec_encodeOf_built {fc : Fc} (p : Ports) (s : State) (h : WithinLimits s.config.maxAdu fc p) :
    ∃ q, exec (encodeOf fc p) s =
      .next (built s fc.toByte p.unit (countOf fc p) (expLen fc p) (bodyOf fc p) q) :=
  ⟨_, exec_encodeOf_valid ((requestValid_iff_withinLimits _ _ _).mpr h)⟩

/-- ENCODE builds the request within the limits `C` and refuses it outside them (41_frame_encoder.md rule R122). -/
theorem exec_encodeOf_built_or_refused (fc : Fc) (p : Ports) (s : State) {C : Prop} [Decidable C]
    (hC : WithinLimits s.config.maxAdu fc p ↔ C) :
    ∃ q x d, x.valid = false ∧ exec (encodeOf fc p) s =
      .next (if C then built s fc.toByte p.unit (countOf fc p) (expLen fc p) (bodyOf fc p) q else refused s x q d) := by
  have hvalid := (requestValid_iff_withinLimits s.config fc p).trans hC
  by_cases h : C
  · refine ⟨crc (bodyOf fc p), freeCtx s.draws, s.draws, rfl, ?_⟩
    rw [if_pos h, exec_encodeOf_valid (hvalid.mpr h), latched_eq_built]
  · refine ⟨crcInitial, freeCtx s.draws, s.draws + 1, rfl, ?_⟩
    rw [if_neg h, exec_encodeOf_invalid (Bool.eq_false_iff.mpr (mt hvalid.mp h)), refuseRequest_eq_refused]

/-- ENCODE accepts exactly the valid requests. -/
theorem accepts_encodeOf (fc : Fc) (p : Ports) (s : State) :
    accepts (encodeOf fc p) s ↔ requestValid s.config fc p = true := by
  cases h : requestValid s.config fc p with
  | true => exact iff_of_true ⟨_, exec_encodeOf_valid h, rfl⟩ rfl
  | false =>
    refine iff_of_false ?_ Bool.false_ne_true
    rintro ⟨t, ht, hcst⟩
    cases (exec_encodeOf_invalid h).symm.trans ht
    cases hcst

/-! ### The words of ENCODE -/

theorem decode_encodeOf {fc : Fc} {p : Ports} (h : portError (encodeOf fc p) = none) :
    decode ⟨commandWord 0x06 fc.toByte, p⟩ = .ok (encodeOf fc p) := decode_eq_ok_iff_reading.mpr ⟨.encode fc, h⟩

theorem decode_encodeOf_of_wf (fc : Fc) {p : Ports} (h : p.wf = true) :
    decode ⟨commandWord 0x06 fc.toByte, p⟩ = .ok (encodeOf fc p) :=
  decode_encodeOf ((Reading.encode fc).portError_eq_none h)

/-- The bytes outside the function-code set (30_encoding.md rule R65). -/
theorem ofByte?_eq_none_iff {b : Byte} : Fc.ofByte? b = none ↔ b.toNat ∉ Fc.all.map fun fc => fc.toByte.toNat := by
  simp [Fc.ofByte?, BitVec.toNat_inj]

/-! ### The packed coils -/

/-- Coil `i` is bit `i mod 8` of packed byte `i div 8`, zero past the last coil (30_encoding.md rule R70). -/
theorem packBits_getLsbD {bits : List Bool} {i : Nat} (h : i < 8 * (packBits bits).length) :
    ((packBits bits).getD (i / 8) 0).getLsbD (i % 8) = bits.getD i false := by
  have hbyte : (packBits bits).getD (i / 8) 0 = packByte bits (i / 8) := by
    rw [List.getD_eq_getElem _ _ (by omega)]
    simp [packBits]
  rw [hbyte, packByte_getLsbD bits (i / 8) (Nat.mod_lt i (by decide)), Nat.div_add_mod]

end Sys2Proof.Machine
end

section
/-! The obligations of ENCODE, each from the lemmas above. -/

namespace Sys2Proof.Proofs

open Sys2Proof.Machine Sys2Proof.Claims

/-- Settles O13: the three functions whose limit is the length of the response. -/
theorem encodeBuildsReadRequests : Obligations.EncodeBuildsReadRequests := by
  refine ⟨fun ports => ⟨decode_encodeOf (fc := .rc) rfl, decode_encodeOf (fc := .rdi) rfl, decode_encodeOf (fc := .rir) rfl⟩,
    fun u a c s => ?_⟩
  let p : Ports := { Ports.idle with unit := u, addr := a, count := c }
  exact ⟨exec_encodeOf_built_or_refused .rc p s .rfl, exec_encodeOf_built_or_refused .rdi p s .rfl,
    exec_encodeOf_built_or_refused .rir p s .rfl⟩

/-- Settles O14: the four functions without a limit. -/
theorem encodeBuildsFixedRequests : Obligations.EncodeBuildsFixedRequests := by
  refine ⟨fun ports => ⟨decode_encodeOf (fc := .rhr) rfl, decode_encodeOf (fc := .wsc) rfl, decode_encodeOf (fc := .wsr) rfl,
    decode_encodeOf (fc := .res) rfl⟩, fun u a s => ⟨?_, fun on => ?_, fun v => ?_, ?_⟩⟩
  · exact exec_encodeOf_built (fc := .rhr) { Ports.idle with unit := u, addr := a } s trivial
  · have h := exec_encodeOf_built (fc := .wsc) { Ports.idle with unit := u, addr := a, state := on } s trivial
    cases on <;> exact h
  · exact exec_encodeOf_built (fc := .wsr) { Ports.idle with unit := u, addr := a, value := v } s trivial
  · exact exec_encodeOf_built (fc := .res) { Ports.idle with unit := u } s trivial

/-- Settles O15: request and response have the same length, which is the limit. -/
theorem encodeBuildsDiagnosticsEcho : Obligations.EncodeBuildsDiagnosticsEcho :=
  ⟨fun _ => decode_encodeOf (fc := .diag) rfl, fun u bytes s =>
    exec_encodeOf_built_or_refused .diag { Ports.idle with unit := u, bytes := bytes } s .rfl⟩

/-- Settles O16: the packed bytes are `packBits` of the coils. -/
theorem encodeBuildsMultipleCoils : Obligations.EncodeBuildsMultipleCoils :=
  ⟨fun _ => decode_encodeOf_of_wf .wmc, fun u a bits s => ⟨packBits bits, packBits_length bits, fun _ => packBits_getLsbD,
    exec_encodeOf_built_or_refused .wmc { Ports.idle with unit := u, addr := a, bits := bits } s .rfl⟩⟩

/-- Settles O17: the registers are `packWords` of WORDS. -/
theorem encodeBuildsMultipleRegisters : Obligations.EncodeBuildsMultipleRegisters :=
  ⟨fun _ => decode_encodeOf_of_wf .wmr, fun u a words s =>
    exec_encodeOf_built_or_refused .wmr { Ports.idle with unit := u, addr := a, words := words } s .rfl⟩

/-- Settles O18: a foreign byte has the reading `encodeInvalid`, and what the decoder accepts is well formed. -/
theorem encodeRefusesForeignFunctionCodes : Obligations.EncodeRefusesForeignFunctionCodes := by
  refine fun fc ports => ⟨ofByte?_eq_none_iff.symm.trans ⟨fun h => ?_, fun h => ?_⟩, fun s => ?_⟩
  · exact decode_word (.encodeInvalid fc h) rfl rfl
  · obtain ⟨hr, hp⟩ := decode_eq_ok_iff_reading.mp h
    exact Option.isNone_iff_eq_none.mp (hr.wf_iff.mpr hp)
  · exact ⟨_, _, _, rfl, congrArg Host.Outcome.next (refuseRequest_eq_refused s)⟩

/-- Settles O19: the limits at MAX_ADU = 256, solved for the count. -/
theorem largestAcceptedCounts : Obligations.LargestAcceptedCounts := by
  intro u a s hmax
  have haccepts (fc : Fc) (p : Ports) : accepts (encodeOf fc p) s ↔ WithinLimits 256 fc p :=
    hmax ▸ (accepts_encodeOf fc p s).trans (requestValid_iff_withinLimits s.config fc p)
  refine ⟨fun c => (haccepts .rc { Ports.idle with unit := u, addr := a, count := c }).trans ?_,
    fun c => (haccepts .rdi { Ports.idle with unit := u, addr := a, count := c }).trans ?_,
    fun c => (haccepts .rir { Ports.idle with unit := u, addr := a, count := c }).trans ?_,
    fun b => (haccepts .wmc { Ports.idle with unit := u, addr := a, bits := b }).trans ?_,
    fun w => (haccepts .wmr { Ports.idle with unit := u, addr := a, words := w }).trans ?_,
    fun b => (haccepts .diag { Ports.idle with unit := u, bytes := b }).trans ?_⟩
  all_goals
    simp only [WithinLimits, ceil8]
    omega

end Sys2Proof.Proofs
end

section
/-! SUPPORT. RESOLVE_LEN by its limits, which are those of ENCODE (42_length_resolver.md rule R151), and the bytes that are no
function code of either. -/

namespace Sys2Proof.Machine

open Sys2Proof.Claims

/-! ### The answers of RESOLVE_LEN -/

theorem exec_resolveOf_valid {fc : Fc} {p : Ports} {s : State} (h : requestValid s.config fc p = true) :
    exec (resolveOf fc p) s = .next (complete { s with lenout := BitVec.ofNat 16 (expLen fc p) }) :=
  (exec_resolveOf fc p s).trans (resolveLength_valid h)

theorem exec_resolveOf_invalid {fc : Fc} {p : Ports} {s : State} (h : requestValid s.config fc p = false) :
    exec (resolveOf fc p) s = .next (refuseLength s) :=
  (exec_resolveOf fc p s).trans (resolveLength_invalid h)

/-- RESOLVE_LEN answers the response's length within the limits `C` and refuses outside them (42_length_resolver.md rule R151). -/
theorem exec_resolveOf_resolved (fc : Fc) (p : Ports) (s : State) {C : Prop} [Decidable C]
    (hC : WithinLimits s.config.maxAdu fc p ↔ C) :
    exec (resolveOf fc p) s = .next (resolved s C (expLen fc p)) := by
  have hvalid := (requestValid_iff_withinLimits s.config fc p).trans hC
  by_cases h : C
  · rw [exec_resolveOf_valid (hvalid.mpr h), resolved, if_pos h]; rfl
  · rw [exec_resolveOf_invalid (Bool.eq_false_iff.mpr (mt hvalid.mp h)), resolved, if_neg h]; rfl

/-- RESOLVE_LEN accepts exactly the valid requests. -/
theorem accepts_resolveOf (fc : Fc) (p : Ports) (s : State) :
    accepts (resolveOf fc p) s ↔ requestValid s.config fc p = true := by
  cases h : requestValid s.config fc p with
  | true => exact iff_of_true ⟨_, exec_resolveOf_valid h, rfl⟩ rfl
  | false =>
    refine iff_of_false ?_ Bool.false_ne_true
    rintro ⟨t, ht, hcst⟩
    cases (exec_resolveOf_invalid h).symm.trans ht
    cases hcst

/-! ### The words of RESOLVE_LEN -/

theorem decode_resolveOf_of_wf (fc : Fc) {p : Ports} (h : p.wf = true) :
    decode ⟨commandWord 0x05 fc.toByte, p⟩ = .ok (resolveOf fc p) :=
  have hr : Reading p (commandWord 0x05 fc.toByte) (resolveOf fc p) := .resolve fc
  decode_eq_ok_iff_reading.mpr ⟨hr, hr.portError_eq_none h⟩

/-! ### Bytes outside the function-code set (30_encoding.md rule R74) -/

theorem toByte_or_foreign (b : Byte) : (∃ fc, b = Fc.toByte fc) ∨ Fc.ofByte? b = none := by
  cases h : Fc.ofByte? b with
  | some fc => exact .inl ⟨fc, (toByte_of_ofByte? h).symm⟩
  | none => exact .inr rfl

theorem readResolve_foreign {b : Byte} (h : Fc.ofByte? b = none) (p : Ports) : readResolve b p = .resolveInvalid b := by
  simp [readResolve, h]

theorem readEncode_foreign {b : Byte} (h : Fc.ofByte? b = none) (p : Ports) : readEncode b p = .encodeInvalid b := by
  simp [readEncode, h]

theorem not_accepts_resolveInvalid (b : Byte) (s : State) : ¬accepts (.resolveInvalid b) s := by
  rintro ⟨t, ht, hcst⟩
  cases ht
  cases hcst

theorem not_accepts_encodeInvalid (b : Byte) (s : State) : ¬accepts (.encodeInvalid b) s := by
  rintro ⟨t, ht, hcst⟩
  cases ht
  cases hcst

end Sys2Proof.Machine
end

section
/-! SUPPORT. A DECODE right after its ENCODE, of a response with a good CRC and the resolved length: what its extraction reads is
what the slave put there (42_length_resolver.md rule R153). -/

namespace Sys2Proof.Machine

/-! ### Past the checks of length and CRC -/

theorem checkCrc_withCrc (body : List Byte) (x : Extraction) (s : State) :
    checkCrc (withCrc body) x s = finishDecode x (setPrivAcc s (crc body)) := by
  simp [checkCrc, withCrc, receivedCrc_append, coveredBytes_append, joinBytes_be16]

theorem decodeResponse_of_length {fc : Fc} {rx : List Byte} (x : Extraction) {s : State} (hv : s.ctx.valid = true)
    (hc : s.ctx.fc = fc.toByte) (hl : rx.length = s.ctx.explen.toNat) : decodeResponse fc rx x s = checkCrc rx x s := by
  simp [decodeResponse, hv, hc, hl]

/-- DECODE of a response of the resolved length with a good CRC only depends on what the extraction finds. -/
theorem exec_decodeOf_latched {fc : Fc} {p : Ports} {s : State} (h : requestValid s.config fc p = true) {body : List Byte}
    (hl : body.length + 2 = expLen fc p) :
    exec (decodeOf fc (withCrc body)) (latched fc p s) =
      finishDecode (extractionOf fc (latched fc p s) (withCrc body)) (setPrivAcc (latched fc p s) (crc body)) := by
  have hlen : (withCrc body).length = (latched fc p s).ctx.explen.toNat :=
    (withCrc_length body).trans (hl.trans (ofNat_expLen_toNat h).symm)
  rw [exec_decodeOf, decodeResponse_of_length _ (latched_valid fc p s) rfl hlen, checkCrc_withCrc]

/-- A request within its limits, then a response that the extraction reads as `r`: DECODE answers `r`. -/
theorem encode_decode_result {fc : Fc} {p : Ports} {s t : State} (h : WithinLimits s.config.maxAdu fc p)
    (ht : exec (encodeOf fc p) s = .next t) {body : List Byte} (hl : body.length + 2 = expLen fc p) {r : DecodeResult}
    (hr : extractionOf fc (latched fc p s) (withCrc body) = .value r) :
    ∃ v, exec (decodeOf fc (withCrc body)) t = .next v ∧
      v.result = r ∧ v.status.phase = .decoded ∧ v.status.err = .ok ∧ v.status.cst = .ok := by
  have hvalid := (requestValid_iff_withinLimits s.config fc p).mpr h
  cases (exec_encodeOf_valid hvalid).symm.trans ht
  rw [exec_decodeOf_latched hvalid hl, hr]
  exact ⟨_, rfl, rfl, rfl, rfl, rfl⟩

/-- An ENCODE that ends BUILT had a valid request and latched it. -/
theorem eq_latched_of_built {fc : Fc} {p : Ports} {s t : State} (ht : exec (encodeOf fc p) s = .next t)
    (hb : t.status.phase = .built) : requestValid s.config fc p = true ∧ t = latched fc p s := by
  rcases encodeRequest_cases (exec_encodeOf fc p s ▸ ht) with ⟨hv, ho⟩ | ⟨-, ho⟩
  · cases ho; exact ⟨hv, rfl⟩
  · cases ho; cases hb

theorem latched_txbuf_length (fc : Fc) (p : Ports) (s : State) : (latched fc p s).txbuf.length = reqLen fc p :=
  (withCrc_length _).trans (bodyOf_length fc p)

/-! ### What the extractions read -/

/-- Behind a header the data bytes are read as they are, whatever the CRC behind them. -/
theorem memRead_withCrc {header data : List Byte} {i n : Nat} (hi : header.length = i) (hn : data.length = n) :
    memRead (withCrc (header ++ data)) i n = some data := by
  subst hi hn
  rw [memRead_of_le (by simp [withCrc_length])]
  simp [withCrc]

/-- Bits that the data packs LSB-first are the bits unpacked (30_encoding.md rule R71). -/
theorem unpackBits_eq {data : List Byte} {bits : List Bool}
    (h : ∀ i < bits.length, (data.getD (i / 8) 0).getLsbD (i % 8) = bits.getD i false) :
    unpackBits data bits.length = bits := by
  refine List.ext_getElem (unpackBits_length data _) fun i _ hi => ?_
  rw [← List.getD_eq_getElem bits false hi, ← h i hi]
  simp [unpackBits]

/-- Registers packed high byte first are the registers unpacked (30_encoding.md rule R72). -/
theorem unpackWords_packWords (words : List Word) : unpackWords (packWords words) = words := by
  induction words with
  | nil => rfl
  | cons w ws ih => exact congrArg₂ List.cons (joinBytes_be16 w) ih

theorem extractBits_withCrc (h0 h1 h2 : Byte) {data : List Byte} {bits : List Bool} {s : State}
    (hcount : s.ctx.count.toNat = bits.length) (hl : data.length = ceil8 bits.length)
    (hbits : ∀ i < bits.length, (data.getD (i / 8) 0).getLsbD (i % 8) = bits.getD i false) :
    extractBits s (withCrc ([h0, h1, h2] ++ data)) = .value (.bits bits) := by
  have hread : memRead (withCrc ([h0, h1, h2] ++ data)) 3 (ceil8 bits.length) = some data := memRead_withCrc rfl hl
  simp only [extractBits, extractAt, hcount, hread, unpackBits_eq hbits]

theorem extractRegs_withCrc (h0 h1 h2 : Byte) {words : List Word} {s : State} (hcount : s.ctx.count.toNat = words.length) :
    extractRegs s (withCrc ([h0, h1, h2] ++ packWords words)) = .value (.regs words) := by
  have hread : memRead (withCrc ([h0, h1, h2] ++ packWords words)) 3 (2 * words.length) = some (packWords words) :=
    memRead_withCrc rfl (packWords_length words)
  simp only [extractRegs, extractAt, hcount, hread, unpackWords_packWords]

/-- Four echoed bytes against bytes 2 to 5 of TXBUF (43_response_decoder.md rules R176 to R179). -/
theorem extractEcho_withCrc (h0 h1 : Byte) {echo : List Byte} {s : State} (he : echo.length = 4) (htx : 6 ≤ s.txbuf.length) :
    extractEcho s (withCrc ([h0, h1] ++ echo)) =
      if echo = (s.txbuf.drop 2).take 4 then .value .writeOk else .wrongEcho := by
  have hgot : memRead (withCrc ([h0, h1] ++ echo)) 2 4 = some echo := memRead_withCrc rfl he
  have hsent : memRead s.txbuf 2 4 = some ((s.txbuf.drop 2).take 4) := memRead_of_le htx
  simp only [extractEcho, hgot, hsent]

/-! ### The write functions -/

/-- The functions whose response echoes the request (42_length_resolver.md rule R150). -/
def IsWrite (fc : Fc) : Prop := fc = .wsc ∨ fc = .wsr ∨ fc = .wmc ∨ fc = .wmr

theorem IsWrite.extractionOf_eq {fc : Fc} (h : IsWrite fc) (s : State) (rx : List Byte) :
    extractionOf fc s rx = extractEcho s rx := by
  rcases h with rfl | rfl | rfl | rfl <;> rfl

theorem IsWrite.expLen_eq {fc : Fc} (h : IsWrite fc) (p : Ports) : expLen fc p = 8 := by
  rcases h with rfl | rfl | rfl | rfl <;> rfl

theorem IsWrite.le_reqLen {fc : Fc} (h : IsWrite fc) (p : Ports) : 8 ≤ reqLen fc p := by
  rcases h with rfl | rfl | rfl | rfl <;> simp only [reqLen] <;> omega

/-- DECODE of an eight-byte response with a good CRC, against a write request, compares the echo and nothing else. -/
theorem IsWrite.exec_decodeOf_latched {fc : Fc} (hfc : IsWrite fc) {p : Ports} {s : State}
    (h : requestValid s.config fc p = true) (h0 h1 : Byte) {echo : List Byte} (he : echo.length = 4) :
    exec (decodeOf fc (withCrc ([h0, h1] ++ echo))) (latched fc p s) =
      finishDecode (if echo = ((latched fc p s).txbuf.drop 2).take 4 then .value .writeOk else .wrongEcho)
        (setPrivAcc (latched fc p s) (crc ([h0, h1] ++ echo))) := by
  have htx : 6 ≤ (latched fc p s).txbuf.length := by
    have := hfc.le_reqLen p
    rw [latched_txbuf_length]; omega
  rw [Machine.exec_decodeOf_latched h (by simp [he, hfc.expLen_eq]), hfc.extractionOf_eq, extractEcho_withCrc h0 h1 he htx]

end Sys2Proof.Machine
end

section
/-! The obligations of RESOLVE_LEN and of ENCODE followed by DECODE, each from the lemmas above. -/

namespace Sys2Proof.Proofs

open Sys2Proof.Machine Sys2Proof.Claims

/-- Settles O10: each function by its limits, which are all of ENCODE's. -/
theorem resolveLenGivesResponseLength : Obligations.ResolveLenGivesResponseLength := by
  refine ⟨fun ports h => ⟨decode_resolveOf_of_wf .rc h, decode_resolveOf_of_wf .rdi h, decode_resolveOf_of_wf .rhr h,
    decode_resolveOf_of_wf .rir h, decode_resolveOf_of_wf .wsc h, decode_resolveOf_of_wf .wsr h, decode_resolveOf_of_wf .res h,
    decode_resolveOf_of_wf .diag h, decode_resolveOf_of_wf .wmc h, decode_resolveOf_of_wf .wmr h, fun fc hfc =>
      decode_word (.resolveInvalid fc (ofByte?_eq_none_iff.mpr hfc)) rfl rfl⟩, fun s => ?_⟩
  exact ⟨fun c => exec_resolveOf_resolved .rc { Ports.idle with count := c } s .rfl,
    fun c => exec_resolveOf_resolved .rdi { Ports.idle with count := c } s .rfl,
    exec_resolveOf_resolved .rhr Ports.idle s .rfl,
    fun c => exec_resolveOf_resolved .rir { Ports.idle with count := c } s .rfl,
    exec_resolveOf_resolved .wsc Ports.idle s .rfl,
    exec_resolveOf_resolved .wsr Ports.idle s .rfl,
    exec_resolveOf_resolved .res Ports.idle s .rfl,
    fun b => exec_resolveOf_resolved .diag { Ports.idle with bytes := b } s .rfl,
    fun b => exec_resolveOf_resolved .wmc { Ports.idle with bits := b } s .rfl,
    fun w => exec_resolveOf_resolved .wmr { Ports.idle with words := w } s .rfl,
    fun fc => rfl⟩

/-- Settles O11: both accept the valid requests, and no byte outside the set. -/
theorem resolveLenAcceptsWhatEncodeAccepts : Obligations.ResolveLenAcceptsWhatEncodeAccepts := by
  intro b p s
  rcases toByte_or_foreign b with ⟨fc, rfl⟩ | hb
  · rw [readResolve_toByte, readEncode_toByte, accepts_resolveOf, accepts_encodeOf]
  · rw [readResolve_foreign hb, readEncode_foreign hb]
    exact iff_of_false (not_accepts_resolveInvalid b s) (not_accepts_encodeInvalid b s)

/-- Settles O12: an accepted request is valid, and both compute its response length. -/
theorem resolveLenAnswersWhatEncodeLatches : Obligations.ResolveLenAnswersWhatEncodeLatches := by
  intro b p s t u ht hu hcst
  rcases toByte_or_foreign b with ⟨fc, rfl⟩ | hb
  · rw [readResolve_toByte] at ht
    rw [readEncode_toByte] at hu
    have hvalid := (accepts_resolveOf fc p s).mp ⟨t, ht, hcst⟩
    cases (exec_resolveOf_valid hvalid).symm.trans ht
    cases (exec_encodeOf_valid hvalid).symm.trans hu
    exact ⟨rfl, rfl⟩
  · rw [readResolve_foreign hb] at ht
    exact absurd ⟨t, ht, hcst⟩ (not_accepts_resolveInvalid b s)

/-- Settles O28: the data bytes are read back as they were sent, and unpack to the bits they pack. -/
theorem readCoilsReturnsTheSlavesBits : Obligations.ReadCoilsReturnsTheSlavesBits := by
  intro u h0 h1 h2 a c bits data s t hbits hpos hmax hdata hpacked
  let p : Ports := { Ports.idle with unit := u, addr := a, count := c }
  have hlen : ([h0, h1, h2] ++ data).length + 2 = 5 + ceil8 c.toNat := by simp [hdata, ceil8]; omega
  rw [← hbits] at hdata hpacked
  have hread (s : State) (hs : s.ctx.count = c) : extractBits s (withCrc ([h0, h1, h2] ++ data)) = .value (.bits bits) :=
    extractBits_withCrc h0 h1 h2 (by rw [hs, hbits]) hdata hpacked
  exact ⟨fun ht => encode_decode_result (fc := .rc) (p := p) ⟨hpos, hmax⟩ ht hlen (hread _ rfl),
    fun ht => encode_decode_result (fc := .rdi) (p := p) ⟨hpos, hmax⟩ ht hlen (hread _ rfl)⟩

/-- Settles O29: the data bytes are read back as they were sent, and unpack to the registers they pack. -/
theorem readInputRegistersReturnsTheSlavesWords : Obligations.ReadInputRegistersReturnsTheSlavesWords := by
  intro u h0 h1 h2 a c words s t hwords hpos hmax ht
  let p : Ports := { Ports.idle with unit := u, addr := a, count := c }
  have hlen : ([h0, h1, h2] ++ packWords words).length + 2 = 5 + 2 * c.toNat := by
    rw [List.length_append, packWords_length, hwords]; simp; omega
  exact encode_decode_result (fc := .rir) (p := p) ⟨hpos, hmax⟩ ht hlen (extractRegs_withCrc h0 h1 h2 hwords.symm)

/-- Settles O30: past length and CRC only the comparison of the echo is left. -/
theorem writeResponsesAreJudgedByTheirEcho : Obligations.WriteResponsesAreJudgedByTheirEcho := by
  intro fc p h0 h1 echo s t hfc hlen ht hb
  obtain ⟨hvalid, rfl⟩ := eq_latched_of_built ht hb
  rw [IsWrite.exec_decodeOf_latched hfc hvalid h0 h1 hlen]
  split
  · next heq => exact ⟨_, rfl, fun _ => ⟨rfl, rfl⟩, absurd heq⟩
  · next hne => exact ⟨_, rfl, (absurd · hne), fun _ => ⟨rfl, rfl, rfl, rfl⟩⟩

end Sys2Proof.Proofs
end

section
/-! SUPPORT. DECODE by its checks (43_response_decoder.md rules R170, R171): the state it answers when the response is readable, and
what each extraction reads, by offsets into the response (rules R172 to R181). -/

namespace Sys2Proof.Machine

open Sys2Proof.Claims

/-! ### The words of DECODE -/

theorem decode_decodeOf (fc : Fc) (p : Ports) : decode ⟨commandWord 0x07 fc.toByte, p⟩ = .ok (decodeOf fc p.rx) :=
  decode_eq_ok_iff_reading.mpr ⟨.decode fc, portError_decodeOf fc p.rx⟩

/-! ### The checks in their order -/

/-- Where the response that passes length and CRC can be judged, DECODE answers as its checks say, first to last. -/
theorem exec_decodeOf_checked {fc : Fc} {rx : List Byte} {s : State} {last : Word → State}
    (h : s.ctx.valid = true → s.ctx.fc = fc.toByte → rx.length = s.ctx.explen.toNat →
      2 ≤ rx.length ∧ ∀ p, finishDecode (extractionOf fc s rx) (setPrivAcc s p) = .next (last p)) :
    ∃ p, exec (decodeOf fc rx) s = .next (checked s fc.toByte rx p (last p)) := by
  rw [exec_decodeOf]
  rcases decodeResponse_cases (rfl : decodeResponse fc rx (extractionOf fc s rx) s = _) with
    ⟨hseq, ho⟩ | ⟨hv, hc, ⟨hl, ho⟩ | ⟨hl, hcrc⟩⟩
  · refine ⟨crcInitial, ho.trans (congrArg _ ?_)⟩
    rw [checked, if_pos (hseq.imp_right Ne.symm)]
    rfl
  · refine ⟨crcInitial, ho.trans (congrArg _ ?_)⟩
    rw [checked, if_neg (by simp [hv, hc]), if_pos hl]
    rfl
  · obtain ⟨hlen, hlast⟩ := h hv hc.symm hl
    have hpast (p : Word) :
        checked s fc.toByte rx p (last p) = if crcValid rx = false then failed s .checksumMismatch p else last p := by
      simp [checked, hv, hc, hl]
    rcases hcrc with ⟨hnone, -⟩ | ⟨r, hr, hne, ho⟩ | ⟨hr, ho⟩
    · obtain ⟨r, hr⟩ := receivedCrc_isSome hlen
      simp [hr] at hnone
    · refine ⟨crc (coveredBytes rx), ho.trans (congrArg _ ?_)⟩
      rw [hpast, if_pos (by simpa [crcValid, hr] using hne.symm)]
      rfl
    · refine ⟨crc (coveredBytes rx), ho.trans ((hlast _).trans (congrArg _ ?_))⟩
      rw [hpast, if_neg (by simp [crcValid, hr])]

/-- A context with the response length of its function, and an extraction that reads `v` from such a response. -/
theorem exec_decodeOf_value {fc : Fc} {rx : List Byte} {s : State} {n : Nat} {v : DecodeResult}
    (hn : Requires s fc.toByte n) (h2 : 2 ≤ n) (hx : rx.length = n → extractionOf fc s rx = .value v) :
    ∃ p, exec (decodeOf fc rx) s = .next (checked s fc.toByte rx p (decoded s v p)) := by
  refine exec_decodeOf_checked fun hv hc hl => ?_
  have hlen : rx.length = n := hl.trans (hn hv hc)
  exact ⟨hlen ▸ h2, fun p => by rw [hx hlen]; rfl⟩

/-! ### Bytes of a response by their offset -/

theorem drop_eq_getD_cons {rx : List Byte} {i : Nat} (h : i < rx.length) : rx.drop i = rx.getD i 0 :: rx.drop (i + 1) := by
  rw [List.drop_eq_getElem_cons h, List.getD_eq_getElem _ _ h]

theorem fieldAt_eq_joinBytes (rx : List Byte) (i : Nat) : fieldAt rx i = joinBytes (rx.getD i 0) (rx.getD (i + 1) 0) := by
  apply BitVec.eq_of_toNat_eq
  rw [joinBytes_toNat, fieldAt, BitVec.toNat_ofNat, Nat.mod_eq_of_lt (by omega)]
  omega

/-- The bit that a shift and a mask single out. -/
theorem shift_and_one_eq_one (b : Byte) (j : Nat) : decide ((b >>> j) &&& 1#8 = 1#8) = b.getLsbD j := by
  rw [BitVec.and_one_eq_setWidth_ofBool_getLsbD, BitVec.getLsbD_ushiftRight, Nat.add_zero]
  cases b.getLsbD j <;> rfl

/-! ### What the extractions read -/

theorem unpackBits_eq_bitsOf (rx : List Byte) (n : Nat) : unpackBits ((rx.drop 3).take (ceil8 n)) n = bitsOf rx n := by
  refine List.map_congr_left fun i hi => ?_
  have hbyte : i / 8 < ceil8 n := by
    have := List.mem_range.mp hi
    simp only [ceil8]; omega
  rw [shift_and_one_eq_one]
  simp [List.getElem?_take_of_lt hbyte]

theorem unpackWords_eq_fields {rx : List Byte} {i n : Nat} (h : i + 2 * n ≤ rx.length) :
    unpackWords ((rx.drop i).take (2 * n)) = (List.range n).map fun k => fieldAt rx (i + 2 * k) := by
  induction n generalizing i with
  | zero => rfl
  | succ n ih =>
    rw [drop_eq_getD_cons (by omega), drop_eq_getD_cons (by omega), Nat.mul_succ, List.take_succ_cons, List.take_succ_cons,
      unpackWords, ih (by omega), ← fieldAt_eq_joinBytes, List.range_succ_eq_map, List.map_cons, List.map_map]
    refine congrArg _ (List.map_congr_left fun k _ => congrArg (fieldAt rx) ?_)
    omega

theorem extractBits_eq {rx : List Byte} {s : State} (h : rx.length = 5 + ceil8 s.ctx.count.toNat) :
    extractBits s rx = .value (.bits (bitsOf rx s.ctx.count.toNat)) := by
  rw [extractBits, extractAt, memRead_of_le (by omega), ← unpackBits_eq_bitsOf]

theorem extractRegs_eq {rx : List Byte} {s : State} (h : rx.length = 5 + 2 * s.ctx.count.toNat) :
    extractRegs s rx = .value (.regs ((List.range s.ctx.count.toNat).map fun i => fieldAt rx (3 + 2 * i))) := by
  rw [extractRegs, extractAt, memRead_of_le (by omega), ← unpackWords_eq_fields (by omega)]

theorem extractReg_eq {rx : List Byte} (h : rx.length = 7) : extractReg rx = .value (.reg (fieldAt rx 3)) := by
  have hread : memRead rx 3 2 = some [rx.getD 3 0, rx.getD 4 0] := by
    rw [memRead_of_le (by omega), drop_eq_getD_cons (by omega), drop_eq_getD_cons (by omega)]
    rfl
  simp only [extractReg, hread, fieldAt_eq_joinBytes]

theorem extractStatus_eq {rx : List Byte} (h : rx.length = 5) : extractStatus rx = .value (.excStatus (rx.getD 2 0)) := by
  have hread : memRead rx 2 1 = some [rx.getD 2 0] := by
    rw [memRead_of_le (by omega), drop_eq_getD_cons (by omega)]
    rfl
  simp only [extractStatus, hread]

theorem extractData_eq {rx : List Byte} {s : State} (h : rx.length = 6 + s.ctx.count.toNat) :
    extractData s rx = .value (.echo ((rx.drop 4).take s.ctx.count.toNat)) := by
  rw [extractData, extractAt, memRead_of_le (by omega)]

theorem extractEcho_eq {rx : List Byte} {s : State} (h : 6 ≤ rx.length) (hs : 6 ≤ s.txbuf.length) :
    extractEcho s rx = if (rx.drop 2).take 4 = (s.txbuf.drop 2).take 4 then .value .writeOk else .wrongEcho := by
  rw [extractEcho, memRead_of_le (by omega), memRead_of_le (by omega)]

/-- A write function's DECODE confirms or rejects the echo, past the checks of length and CRC. -/
theorem IsWrite.exec_decodeOf_confirmed {fc : Fc} (hfc : IsWrite fc) {rx : List Byte} {s : State}
    (h : RequiresEcho s fc.toByte) :
    ∃ p, exec (decodeOf fc rx) s = .next (checked s fc.toByte rx p (confirmed s rx p)) := by
  refine exec_decodeOf_checked fun hv hc hl => ?_
  obtain ⟨hexp, htx⟩ := h hv hc
  refine ⟨by omega, fun p => ?_⟩
  rw [hfc.extractionOf_eq, extractEcho_eq (by omega) htx, confirmed]
  split <;> rfl

end Sys2Proof.Machine
end

section
/-! SUPPORT. What DECODE reads and writes (43_response_decoder.md rule R183): its ending is fixed by CTX, TXBUF and the response,
and is the same ending in every state with that CTX and TXBUF. -/

namespace Sys2Proof.Machine

open Sys2Proof.Claims

/-- How a DECODE can end (43_response_decoder.md rules R170, R171). -/
inductive Ending where
  | outOfSequence
  | error (e : ErrCode)
  | value (r : DecodeResult)

/-- The state a DECODE with this ending leaves, with `privAcc` at `p`. -/
def Ending.leaves (p : Word) (s : State) : Ending → State
  | .outOfSequence => { withCst s .sequenceError with privAcc := p }
  | .error e => failed s e p
  | .value r => decoded s r p

@[simp] theorem Ending.leaves_ctx (d : Ending) (p : Word) (s : State) : (d.leaves p s).ctx = s.ctx := by cases d <;> rfl

@[simp] theorem Ending.leaves_txbuf (d : Ending) (p : Word) (s : State) : (d.leaves p s).txbuf = s.txbuf := by cases d <;> rfl

/-- A second time the same ending writes what is there. -/
theorem Ending.leaves_leaves (d : Ending) (p : Word) (s : State) : d.leaves p (d.leaves p s) = d.leaves p s := by
  cases d <;> rfl

theorem finishDecode_ending {x : Extraction} {s t : State} {p : Word} (h : finishDecode x (setPrivAcc s p) = .next t) :
    ∃ d : Ending, ∀ u, finishDecode x (setPrivAcc u p) = .next (d.leaves p u) := by
  cases x with
  | value r => exact ⟨.value r, fun _ => rfl⟩
  | wrongEcho => exact ⟨.error .echoMismatch, fun _ => rfl⟩
  | unreadable => cases h

theorem checkCrc_ending {rx : List Byte} {x : Extraction} {s t : State} (h : checkCrc rx x s = .next t) :
    ∃ (d : Ending) (p : Word), ∀ u, checkCrc rx x u = .next (d.leaves p u) := by
  unfold checkCrc at h ⊢
  cases hr : receivedCrc rx with
  | none => simp [hr] at h
  | some r =>
    simp only [hr] at h ⊢
    split at h
    · next hcrc =>
      obtain ⟨d, hd⟩ := finishDecode_ending h
      exact ⟨d, _, fun u => by rw [if_pos hcrc, hd]⟩
    · next hcrc => exact ⟨.error .checksumMismatch, _, fun u => if_neg hcrc⟩

theorem decodeResponse_ending {fc : Fc} {rx : List Byte} {x : Extraction} {s t : State}
    (h : decodeResponse fc rx x s = .next t) :
    ∃ (d : Ending) (p : Word), ∀ u, u.ctx = s.ctx → decodeResponse fc rx x u = .next (d.leaves p u) := by
  unfold decodeResponse at h ⊢
  split at h
  · next hseq => exact ⟨.outOfSequence, crcInitial, fun u hu => by rw [hu, if_pos hseq]; rfl⟩
  · next hseq =>
    split at h
    · next hl => exact ⟨.error .invalidResponseLength, crcInitial, fun u hu => by rw [hu, if_neg hseq, if_pos hl]; rfl⟩
    · next hl =>
      obtain ⟨d, p, hd⟩ := checkCrc_ending h
      exact ⟨d, p, fun u hu => by rw [hu, if_neg hseq, if_neg hl, hd]⟩

/-- A DECODE that answers in `s` ends the same way in every state with the CTX and the TXBUF of `s`. -/
theorem exec_decode_ending {i : Instr} {s t : State} (hi : isDecode i = true) (h : exec i s = .next t) :
    ∃ (d : Ending) (p : Word), ∀ u, u.ctx = s.ctx → u.txbuf = s.txbuf → exec i u = .next (d.leaves p u) := by
  cases commandClass i with
  | decode fc rx =>
    rw [exec_decodeOf] at h
    obtain ⟨d, p, hd⟩ := decodeResponse_ending h
    exact ⟨d, p, fun u hx hb => by rw [exec_decodeOf, extractionOf_congr fc rx hx hb, hd u hx]⟩
  | decodeInvalid b => exact ⟨.outOfSequence, crcInitial, fun _ _ _ => rfl⟩
  | abort hf | illegal hf => simp [isDecode, hf] at hi
  | _ => simp [isDecode] at hi

/-- Of the registers that DECODE writes, an ending with a transaction effect depends on nothing before it. -/
theorem Ending.leaves_judgement {d : Ending} {p : Word} {s : State} (h : (d.leaves p s).status.cst ≠ .sequenceError)
    (u : State) :
    (d.leaves p u).result = (d.leaves p s).result ∧ (d.leaves p u).status.phase = (d.leaves p s).status.phase ∧
    (d.leaves p u).status.err = (d.leaves p s).status.err ∧ (d.leaves p u).status.cst = (d.leaves p s).status.cst := by
  cases d with
  | outOfSequence => exact absurd rfl h
  | error | value => exact ⟨rfl, rfl, rfl, rfl⟩

/-- Only ENCODE and RESET write CTX and TXBUF (10_state.md rules R30, R31), however many commands run. -/
theorem execAll_keeps_context {l : List Instr} {s t : State} (hl : ∀ j ∈ l, isEncode j = false ∧ isReset j = false)
    (h : execAll l s = some t) : t.ctx = s.ctx ∧ t.txbuf = s.txbuf := by
  induction l generalizing s with
  | nil => cases h; exact ⟨rfl, rfl⟩
  | cons j rest ih =>
    obtain ⟨m, hm, hrest⟩ := Option.bind_eq_some_iff.mp h
    obtain ⟨hj, htail⟩ := List.forall_mem_cons.mp hl
    obtain ⟨-, -, -, hkeeps, -⟩ := Proofs.onlyItsWritersChangeARegister j s m (issue_eq_some.mp hm)
    obtain ⟨hx, hb⟩ := hkeeps hj.1 hj.2
    obtain ⟨hx', hb'⟩ := ih htail hrest
    exact ⟨hx'.trans hx, hb'.trans hb⟩

end Sys2Proof.Machine
end

section
/-! The obligations of DECODE, each from the lemmas above. -/

namespace Sys2Proof.Proofs

open Sys2Proof.Machine Sys2Proof.Claims

/-- Settles O20: the two bit functions, whose data are the packed bits from offset 3. -/
theorem decodeExtractsBits : Obligations.DecodeExtractsBits :=
  ⟨fun ports => ⟨decode_decodeOf .rc ports, decode_decodeOf .rdi ports⟩, fun _ _ =>
    ⟨fun h => exec_decodeOf_value (fc := .rc) h (by omega) extractBits_eq,
      fun h => exec_decodeOf_value (fc := .rdi) h (by omega) extractBits_eq⟩⟩

/-- Settles O21: the register functions, an array and a single register from offset 3. -/
theorem decodeExtractsRegisters : Obligations.DecodeExtractsRegisters :=
  ⟨fun ports => ⟨decode_decodeOf .rir ports, decode_decodeOf .rhr ports⟩, fun _ _ =>
    ⟨fun h => exec_decodeOf_value (fc := .rir) h (by omega) extractRegs_eq,
      fun h => exec_decodeOf_value (fc := .rhr) h (by omega) extractReg_eq⟩⟩

/-- Settles O22: the four write functions have one extraction, the comparison of the echo. -/
theorem decodeConfirmsWrites : Obligations.DecodeConfirmsWrites :=
  ⟨fun ports => ⟨decode_decodeOf .wsc ports, decode_decodeOf .wsr ports, decode_decodeOf .wmc ports,
    decode_decodeOf .wmr ports⟩, fun _ _ =>
    ⟨IsWrite.exec_decodeOf_confirmed (fc := .wsc) (by simp [IsWrite]),
      IsWrite.exec_decodeOf_confirmed (fc := .wsr) (by simp [IsWrite]),
      IsWrite.exec_decodeOf_confirmed (fc := .wmc) (by simp [IsWrite]),
      IsWrite.exec_decodeOf_confirmed (fc := .wmr) (by simp [IsWrite])⟩⟩

/-- Settles O23: one byte at offset 2, and the data from offset 4. -/
theorem decodeExtractsStatusAndEcho : Obligations.DecodeExtractsStatusAndEcho :=
  ⟨fun ports => ⟨decode_decodeOf .res ports, decode_decodeOf .diag ports⟩, fun _ _ =>
    ⟨fun h => exec_decodeOf_value (fc := .res) h (by omega) extractStatus_eq,
      fun h => exec_decodeOf_value (fc := .diag) h (by omega) extractData_eq⟩⟩

/-- Settles O24: a foreign byte has the reading `decodeInvalid`, and what the decoder accepts is well formed. -/
theorem decodeRefusesForeignFunctionCodes : Obligations.DecodeRefusesForeignFunctionCodes := by
  refine fun fc ports => ⟨ofByte?_eq_none_iff.symm.trans ⟨fun h => ?_, fun h => ?_⟩, fun s => ⟨crcInitial, rfl⟩⟩
  · exact decode_word (.decodeInvalid fc h) rfl rfl
  · obtain ⟨hr, hp⟩ := decode_eq_ok_iff_reading.mp h
    exact Option.isNone_iff_eq_none.mp (hr.wf_iff.mpr hp)

/-- Settles O25: the first DECODE keeps CTX and TXBUF, so the second has its ending, which is written already. -/
theorem decodeTwiceIsDecodeOnce : Obligations.DecodeTwiceIsDecodeOnce := by
  intro i s t hi h
  obtain ⟨d, p, hd⟩ := exec_decode_ending hi h
  cases h.symm.trans (hd s rfl rfl)
  rw [hd _ (d.leaves_ctx p s) (d.leaves_txbuf p s), d.leaves_leaves]

/-- Settles O26: CTX and TXBUF are kept up to the second DECODE, which has the ending of the first. -/
theorem decodeIsRepeatable : Obligations.DecodeIsRepeatable := by
  intro i between s t u v hi h hseq hbetween hu hv
  obtain ⟨d, p, hd⟩ := exec_decode_ending hi h
  cases h.symm.trans (hd s rfl rfl)
  obtain ⟨hx, hb⟩ := execAll_keeps_context hbetween hu
  cases hv.symm.trans (hd u (hx.trans (d.leaves_ctx p s)) (hb.trans (d.leaves_txbuf p s)))
  exact Ending.leaves_judgement hseq u

/-- Settles O27: each effect of a DECODE is one of the three cases, and an extracted value is never NONE. -/
theorem noPartialResult : Obligations.NoPartialResult := by
  intro i s t hi h
  cases exec_effect h with
  | decodeOutOfSequence => simp
  | responseRejected fc rx e p hv hc he => fin_cases he <;> simp
  | echoRejected => simp
  | resultCommitted fc rx r p hv hc hr => simp [resultFits_ne_none (resultFits_of_extractionOf hr)]
  | lengthRefused hf | requestRefused hf | abortOutOfSequence hf | aborted _ hf | illegal hf => simp [isDecode, hf] at hi
  | _ => simp [isDecode] at hi

end Sys2Proof.Proofs
end

section
/-! SUPPORT. ABORT and the illegal commands (44_control.md rules R200, R202): the state each answers. -/

namespace Sys2Proof.Machine

open Sys2Proof.Claims

/-- ABORT with a code of the set answers by CTX.valid alone (44_control.md rule R200). -/
theorem abortWith_eq (e : ErrCode) (s : State) :
    abortWith e s = .next (if s.ctx.valid = true then aborted s e else withCst s .sequenceError) := by
  rcases abortWith_cases (e := e) (s := s) rfl with ⟨hv, ho⟩ | ⟨hv, ho⟩
  · rw [ho, if_neg (by simp [hv])]; rfl
  · rw [ho, if_pos hv]; rfl

/-- All illegal commands have one meaning (44_control.md rule R202). -/
theorem exec_of_illegal {i : Instr} (h : family i = .illegal) (s : State) :
    exec i s = .next (withCst s .illegalCommand) := by
  cases commandClass i with
  | illegal _ hx => exact hx s
  | abort hf => simp [hf] at h
  | _ => simp at h

end Sys2Proof.Machine
end

section
/-! SUPPORT. The words of ABORT and the words that no table assigns (30_encoding.md rules R61, R62, R73). -/

namespace Sys2Proof

open Sys2Proof.Machine Sys2Proof.Claims

/-- ABORT reads no port, whatever its code (30_encoding.md rule R63). -/
theorem portError_readAbort (code : Byte) : portError (readAbort code) = none := by
  unfold readAbort
  split_ifs <;> rfl

/-- A word whose OPC no row assigns, or ABORT with a code outside its set (30_encoding.md rules R61, R62, R73). -/
def Unassigned (cw : Word) : Prop :=
  cw.toNat / 256 = 0x00 ∨ 0x0A ≤ cw.toNat / 256 ∨ (cw.toNat / 256 = 0x08 ∧ cw.toNat % 256 ∉ [1, 2, 3])

/-- Under an assigned OPC other than ABORT's, every ARG8 is assigned. -/
theorem not_unassigned_commandWord {opc : Byte} (arg : Byte) (h : opc ∈ [0x01, 0x02, 0x03, 0x04, 0x05, 0x06, 0x07, 0x09]) :
    ¬Unassigned (commandWord opc arg) := by
  rw [Unassigned, commandWord_toNat_div]
  fin_cases h <;> simp

theorem not_unassigned_abort {code : Byte} (h : code ∈ abortCodes) : ¬Unassigned (commandWord 0x08 code) := by
  unfold Unassigned
  fin_cases h <;> decide

/-- An unassigned word stands for an illegal command, which reads no port. -/
theorem Reading.illegal_of_unassigned {p : Ports} {cw : Word} {i : Instr} (h : Reading p cw i) (hcw : Unassigned cw) :
    family i = .illegal ∧ portError i = none := by
  cases h with
  | abortIllegal | illegalOpc00 | illegalOpc0A0B | illegalOpc0C0F | illegalOpc101F | illegalOpc203F | illegalOpc407F
  | illegalOpc80FF => exact ⟨rfl, rfl⟩
  | abortTransportError | abortTimeout | abortInvalidResponseLength =>
    exact absurd hcw (not_unassigned_abort (by decide))
  | _ => exact absurd hcw (not_unassigned_commandWord _ (by decide))

end Sys2Proof
end

section
/-! The obligations of ABORT, RESET and the illegal commands, each from the lemmas above. -/

namespace Sys2Proof.Proofs

open Sys2Proof.Machine Sys2Proof.Claims

/-- Settles O34: the step runs the word's reading, an illegal command whatever the ports hold. -/
theorem unassignedWordsAreIllegalCommands : Obligations.UnassignedWordsAreIllegalCommands := by
  intro cw ports rest s hcommands hcw
  have hreading := reading_readCommand ⟨cw, ports⟩
  obtain ⟨hillegal, hports⟩ := hreading.illegal_of_unassigned hcw
  rw [step_decoded hcommands (decode_eq_ok_iff_reading.mpr ⟨hreading, hports⟩), exec_of_illegal hillegal]

/-- Settles O31: the three codes share ABORT's operation, every other code is an illegal command. -/
theorem abortRecordsTheHostsFailure : Obligations.AbortRecordsTheHostsFailure := fun s =>
  ⟨abortWith_eq .transportError s, abortWith_eq .timeout s, abortWith_eq .invalidResponseLength s,
    fun _ => exec_of_illegal rfl s,
    fun code ports => decode_word (reading_readAbort ports code) (portError_readAbort code) rfl⟩

/-- Settles O32: RESET writes every register of 10_state.md rule R36 and keeps the private accumulator. -/
theorem resetGivesTheResetState : Obligations.ResetGivesTheResetState :=
  ⟨⟨rfl, by decide, rfl, rfl, rfl, rfl⟩, fun arg _ s => ⟨decode_word (.reset arg) rfl rfl, s.privAcc, rfl⟩⟩

/-- Settles O33: each of the eight belongs to the illegal family. -/
theorem illegalCommandsOnlyRecordTheirCode : Obligations.IllegalCommandsOnlyRecordTheirCode := by
  intro s
  and_intros <;> exact fun _ => exec_of_illegal rfl s

end Sys2Proof.Proofs
end

section
/-! SUPPORT. From a state of the invariant every command answers a next state, and so does every step whose presented command has
its ports within their types (60_exceptions.md rule R220). -/

namespace Sys2Proof.Machine

/-- CTX describes the request of every function whose code it holds, since no two functions have the same code. -/
theorem State.Inv.contextDescribes {s : State} (h : s.Inv) {fc : Fc} (hv : s.ctx.valid = true) (hc : s.ctx.fc = fc.toByte) :
    ContextDescribes s fc := by
  obtain ⟨fc', hd⟩ := h.context hv
  obtain rfl : fc' = fc := toByte_injective (hd.code.symm.trans hc)
  exact hd

/-- DECODE without its own request ends before it reads anything (43_response_decoder.md rule R170). -/
theorem exec_decodeOf_outOfSequence {s : State} {fc : Fc} (rx : List Byte)
    (h : s.ctx.valid = true → s.ctx.fc ≠ fc.toByte) : exec (decodeOf fc rx) s = .next (sequenceError s) := by
  rw [exec_decodeOf, decodeResponse, if_pos]
  cases hv : s.ctx.valid with
  | false => exact .inl rfl
  | true => exact .inr (h hv).symm

theorem State.Inv.decodeOf_answers {s : State} (h : s.Inv) (fc : Fc) (rx : List Byte) :
    ∃ t, exec (decodeOf fc rx) s = .next t := by
  by_cases hreq : s.ctx.valid = true ∧ s.ctx.fc = fc.toByte
  · obtain ⟨hv, hc⟩ := hreq
    obtain ⟨t, ht, -⟩ := (h.contextDescribes hv hc).decode_judged hv rx
    exact ⟨t, ht⟩
  · exact ⟨_, exec_decodeOf_outOfSequence rx (not_and.mp hreq)⟩

/-- No command stops a block that meets its invariant: DECODE, which could, reads the response of the request that CTX describes. -/
theorem State.Inv.exec_answers {s : State} (h : s.Inv) (i : Instr) : ∃ t, exec i s = .next t := by
  cases commandClass i with
  | crcInit | crcUpdate | crcCompute | crcVerify | resolveInvalid | encodeInvalid | decodeInvalid | reset => exact ⟨_, rfl⟩
  | resolve fc p => rcases resolveLength_cases (exec_resolveOf fc p s).symm with ⟨-, ho⟩ | ⟨-, ho⟩ <;> exact ⟨_, ho⟩
  | encode fc p => rcases encodeRequest_cases (exec_encodeOf fc p s).symm with ⟨-, ho⟩ | ⟨-, ho⟩ <;> exact ⟨_, ho⟩
  | decode fc rx => exact h.decodeOf_answers fc rx
  | abort _ _ hx => rcases abortWith_cases (hx s).symm with ⟨-, ho⟩ | ⟨-, ho⟩ <;> exact ⟨_, ho⟩
  | illegal _ hx => exact ⟨_, hx s⟩

/-- Commands do not touch what the host has yet to present (20_memory.md rule R52). -/
theorem exec_commands {i : Instr} {s t : State} (h : exec i s = .next t) : t.commands = s.commands := by
  cases exec_effect h <;> rfl

/-- A step answers, and the state it answers allows another. -/
theorem State.Inv.step_answers {s : State} (h : s.Inv) (hp : s.portsWf = true) :
    ∃ t, step s = .next t ∧ t.Inv ∧ t.portsWf = true := by
  cases hc : s.commands with
  | nil => exact ⟨s, step_idle hc, h, hp⟩
  | cons c rest =>
    obtain ⟨hfirst, hrest⟩ : c.ports.wf = true ∧ State.portsWf { s with commands := rest } = true := by
      simpa only [State.portsWf, hc, List.all_cons, Bool.and_eq_true] using hp
    obtain ⟨i, hd⟩ := Proofs.everyCommandWordDecodes c hfirst
    have hinv : State.Inv { s with commands := rest } := h.congr rfl rfl rfl rfl rfl rfl
    obtain ⟨t, ht⟩ := hinv.exec_answers i
    refine ⟨t, (step_decoded hc hd).trans ht, exec_inv ht hinv, ?_⟩
    rw [State.portsWf, exec_commands ht]
    exact hrest

end Sys2Proof.Machine
end

section
/-! SUPPORT. The host's transaction against its block (60_exceptions.md rules R225, R230 to R237): what an event of the protocol
can do, said once, and the agreement through each of its moves. -/

namespace Sys2Proof.Machine

/-! ### What an event can do -/

/-- `x.Move y`: how an event takes `x` to `y`, by what reaches the block. -/
inductive Transaction.Move (x y : Transaction) : Prop where
  /-- ENCODE of a request, or of a retry. -/
  | encode (fc : Fc) (p : Ports) (h : x.encodeNew fc p = some y)
  /-- No command: the request is on its way as before, further on or sent again. -/
  | proceed (hx : x.phase.outstanding = true) (hy : y.phase.outstanding = true) (hf : y.fc = x.fc)
      (hr : y.resent = x.resent) (hb : y.block = x.block)
  /-- ABORT, by which the host reports a failure or ends a cancelled transaction. -/
  | abort (i : Instr) (hx : x.phase.outstanding = true) (hi : family i = .abort) (h : x.drive i .failed = some y)
  /-- RESET of a cancelled transaction. -/
  | reset (h : x.drive (.reset 0x00) .idle = some y)
  /-- DECODE of what was read. -/
  | decode (hx : x.phase.outstanding = true) (h : x.judge (decodeOf x.fc x.rx) .decoded .decoded = some y)
  /-- No command: the request of a FAILED transaction is sent again. -/
  | resend (h : x.retransmit = some y)

/-- A cancelled transaction had a request on its way, and ends with an ABORT or with RESET (60_exceptions.md rule R236). -/
theorem Transaction.cancel_move {x y : Transaction} {how : Closing} (h : x.advance (.cancel how) = some y) : x.Move y := by
  obtain ⟨hp, h⟩ :
      x.phase.outstanding = true ∧ x.drive how.command (if how = .reset then .idle else .failed) = some y := by
    simp only [advance] at h
    split at h <;> simp_all [HostPhase.outstanding]
  cases how with
  | reset => exact .reset h
  | abortTransportError | abortTimeout | abortInvalidResponseLength => exact .abort _ hp rfl h

/-- The inversion of the host protocol: every event is one of the moves. -/
theorem Transaction.advance_move {x y : Transaction} {e : HostEvent} (h : x.advance e = some y) : x.Move y := by
  cases e with
  | request fc p =>
    simp only [advance, start] at h
    split at h
    · cases h
    · exact .encode fc p h
  | written w =>
    cases w with
    | done =>
      obtain ⟨hp, h⟩ := Option.ite_none_right_eq_some.mp h
      cases h
      exact .proceed (by rw [hp]; rfl) rfl rfl rfl rfl
    | transportError =>
      obtain ⟨hp, h⟩ := Option.ite_none_right_eq_some.mp h
      exact .abort _ (by rw [hp]; rfl) rfl h
  | settled =>
    obtain ⟨hp, h⟩ := Option.ite_none_right_eq_some.mp h
    cases h
    exact .proceed (by rw [hp]; rfl) rfl rfl rfl rfl
  | read r =>
    obtain ⟨hp, h⟩ := Option.ite_none_right_eq_some.mp h
    cases r with
    | bytes rx =>
      cases h
      exact .proceed (by rw [hp]; rfl) rfl rfl rfl rfl
    | short | timeout | transportError => exact .abort _ (by rw [hp]; rfl) rfl h
  | validate =>
    obtain ⟨hp, h⟩ := Option.ite_none_right_eq_some.mp h
    exact .decode (by rw [hp]; rfl) h
  | cancel how => exact cancel_move h
  | retry f how =>
    obtain ⟨hp, h⟩ := Option.ite_none_right_eq_some.mp h
    cases how with
    | newEncode fc p => exact .encode fc p h
    | retransmission =>
      cases h
      exact .proceed (hp ▸ f.happensIn_outstanding) rfl rfl rfl rfl
  | retransmit => exact .resend h

/-- ENCODE always answers, and the host goes where PHASE says (60_exceptions.md rule R230). -/
theorem Transaction.encodeNew_answers (x : Transaction) (fc : Fc) (p : Ports) :
    ∃ y t, x.encodeNew fc p = some y ∧ exec (encodeOf fc p) x.block = .next t ∧ y.block = t ∧ y.fc = fc ∧ y.resent = false ∧
      (y.phase = .sending ∧ t.status.phase = .built ∨ y.phase = .failed ∧ t.status.phase = .failed) := by
  cases hv : requestValid x.block.config fc p with
  | true => exact ⟨_, _, encodeNew_valid hv, exec_encodeOf_valid hv, rfl, rfl, rfl, .inl ⟨rfl, rfl⟩⟩
  | false => exact ⟨_, _, encodeNew_invalid hv, exec_encodeOf_invalid hv, rfl, rfl, rfl, .inr ⟨rfl, rfl⟩⟩

/-- ABORT of a built request records one of the host's three errors (44_control.md rule R200). -/
theorem exec_abort_of_valid {i : Instr} (hi : family i = .abort) {s : State} (hv : s.ctx.valid = true) :
    ∃ e ∈ [ErrCode.transportError, .timeout, .invalidResponseLength], exec i s = .next (recordFailure e .ok s) := by
  cases commandClass i with
  | abort _ he hx => exact ⟨_, he, (hx s).trans (abortWith_valid hv)⟩
  | illegal hf => simp [hf] at hi
  | _ => simp at hi

/-! ### Where host and block agree -/

theorem Transaction.shown_of_outstanding {x : Transaction} (h : x.phase.outstanding = true) :
    x.shown = some (if x.resent then .failed else .built) := by
  unfold shown
  split <;> simp_all [HostPhase.outstanding]

/-- With a request on its way, four facts of the block make the agreement. -/
theorem Transaction.agrees_of_outstanding {x : Transaction} (hp : x.phase.outstanding = true) (hi : x.block.Inv)
    (hs : x.block.status.phase = if x.resent then .failed else .built) (hv : x.block.ctx.valid = true)
    (hc : x.block.ctx.fc = x.fc.toByte) : x.Agrees where
  block := hi
  shown p h := by
    rw [shown_of_outstanding hp] at h
    exact hs.trans (Option.some.inj h)
  request _ := hv
  code _ _ := hc

/-- At the end of a transaction the two phases have the same name. -/
theorem Transaction.agrees_of_ended {x : Transaction}
    (hp : x.phase = .decoded ∧ x.block.status.phase = .decoded ∨ x.phase = .failed ∧ x.block.status.phase = .failed)
    (hi : x.block.Inv) (hc : x.block.ctx.valid = true → x.block.ctx.fc = x.fc.toByte) : x.Agrees where
  block := hi
  shown p h := by rcases hp with ⟨hp, hs⟩ | ⟨hp, hs⟩ <;> simp_all [shown]
  request h := by rcases hp with ⟨hp, -⟩ | ⟨hp, -⟩ <;> simp [hp, HostPhase.outstanding] at h
  code _ := hc

theorem Transaction.agrees_of_idle {x : Transaction} (hp : x.phase = .idle) (hi : x.block.Inv) : x.Agrees where
  block := hi
  shown p h := by simp [shown, hp] at h
  request h := by simp [hp, HostPhase.outstanding] at h
  code h := absurd hp h

theorem Transaction.Agrees.phase_of_outstanding {x : Transaction} (hx : x.Agrees) (hp : x.phase.outstanding = true) :
    x.block.status.phase = if x.resent then .failed else .built := hx.shown _ (shown_of_outstanding hp)

theorem Transaction.Agrees.code_of_outstanding {x : Transaction} (hx : x.Agrees) (hp : x.phase.outstanding = true) :
    x.block.ctx.fc = x.fc.toByte := by
  refine hx.code (fun hidle => ?_) (hx.request hp)
  simp [hidle, HostPhase.outstanding] at hp

/-- With a request on its way, DECODE of the host's function meets its own request: it answers, and judges the response. -/
theorem Transaction.Agrees.decode_judged {x : Transaction} (hx : x.Agrees) (hp : x.phase.outstanding = true) (rx : List Byte) :
    ∃ t, exec (decodeOf x.fc rx) x.block = .next t ∧ ResponseJudged t :=
  (hx.block.contextDescribes (hx.request hp) (hx.code_of_outstanding hp)).decode_judged (hx.request hp) rx

/-! ### The agreement through each move -/

theorem Transaction.encodeNew_agrees {x y : Transaction} {fc : Fc} {p : Ports} (h : x.encodeNew fc p = some y) : y.Agrees := by
  cases hv : requestValid x.block.config fc p with
  | true =>
    cases (encodeNew_valid hv).symm.trans h
    exact agrees_of_outstanding rfl (latched_inv hv) rfl rfl rfl
  | false =>
    cases (encodeNew_invalid hv).symm.trans h
    exact agrees_of_ended (.inr ⟨rfl, rfl⟩) (refuseRequest_inv x.block) (by simp)

theorem Transaction.Agrees.drive_abort {x y : Transaction} (hx : x.Agrees) (hp : x.phase.outstanding = true) {i : Instr}
    (hi : family i = .abort) (h : x.drive i .failed = some y) : y.Agrees := by
  obtain ⟨t, ht, rfl⟩ := drive_eq_some.mp h
  obtain ⟨e, he, ho⟩ := exec_abort_of_valid hi (hx.request hp)
  cases ho.symm.trans ht
  exact agrees_of_ended (.inr ⟨rfl, rfl⟩) (exec_inv ht hx.block) fun _ => hx.code_of_outstanding hp

theorem Transaction.Agrees.judge_decode {x y : Transaction} (hx : x.Agrees) (hp : x.phase.outstanding = true)
    (h : x.judge (decodeOf x.fc x.rx) .decoded .decoded = some y) : y.Agrees := by
  obtain ⟨t, ht, rfl⟩ := judge_eq_some.mp h
  obtain ⟨u, hu, hj⟩ := hx.decode_judged hp x.rx
  cases hu.symm.trans ht
  obtain ⟨-, -, -, hkeeps, -⟩ := Proofs.onlyItsWritersChangeARegister _ _ _ ht
  obtain ⟨hctx, -⟩ := hkeeps (by simp [isEncode]) (by simp [isReset])
  refine agrees_of_ended ?_ (exec_inv ht hx.block) fun _ => (congrArg Ctx.fc hctx).trans (hx.code_of_outstanding hp)
  rcases hj with ⟨hphase, -⟩ | ⟨hphase, -⟩ <;> simp [hphase]

theorem Transaction.Move.agrees {x y : Transaction} (m : x.Move y) (hx : x.Agrees) : y.Agrees := by
  cases m with
  | encode fc p h => exact encodeNew_agrees h
  | proceed hp hy hf hr hb =>
    refine agrees_of_outstanding hy (hb ▸ hx.block) ?_ (hb ▸ hx.request hp) (hb ▸ hf ▸ hx.code_of_outstanding hp)
    rw [hb, hr, hx.phase_of_outstanding hp]
  | abort i hp hi h => exact hx.drive_abort hp hi h
  | reset h =>
    obtain ⟨t, ht, rfl⟩ := drive_eq_some.mp h
    exact agrees_of_idle rfl (exec_inv ht hx.block)
  | decode hp h => exact hx.judge_decode hp h
  | resend h =>
    obtain ⟨hp, hv, rfl⟩ := retransmit_eq_some.mp h
    exact agrees_of_outstanding rfl hx.block (hx.shown .failed (by simp [shown, hp])) hv (hx.code (by simp [hp]) hv)

end Sys2Proof.Machine
end

section
/-! SUPPORT. Which DECODE can report a wrong echo (43_response_decoder.md rules R176 to R179). -/

namespace Sys2Proof.Machine

theorem extractAt_ne_wrongEcho (rx : List Byte) (i n : Nat) (read : List Byte → DecodeResult) :
    extractAt rx i n read ≠ .wrongEcho := by
  unfold extractAt
  split <;> simp

theorem extractReg_ne_wrongEcho (rx : List Byte) : extractReg rx ≠ .wrongEcho := by
  unfold extractReg
  split <;> simp

theorem extractStatus_ne_wrongEcho (rx : List Byte) : extractStatus rx ≠ .wrongEcho := by
  unfold extractStatus
  split <;> simp

/-- Only the write functions compare an echo. -/
theorem isWrite_of_wrongEcho {fc : Fc} {s : State} {rx : List Byte} (h : extractionOf fc s rx = .wrongEcho) : IsWrite fc := by
  cases fc with
  | rc | rdi | rir | diag => exact absurd h (extractAt_ne_wrongEcho _ _ _ _)
  | rhr => exact absurd h (extractReg_ne_wrongEcho rx)
  | res => exact absurd h (extractStatus_ne_wrongEcho rx)
  | wsc | wsr | wmc | wmr => simp [IsWrite]

/-- The write functions' DECODE commands. -/
theorem IsWrite.decodeOf_eq {fc : Fc} (h : IsWrite fc) (rx : List Byte) :
    decodeOf fc rx = .decodeWSC rx ∨ decodeOf fc rx = .decodeWSR rx ∨ decodeOf fc rx = .decodeWMC rx ∨
      decodeOf fc rx = .decodeWMR rx := by
  rcases h with rfl | rfl | rfl | rfl <;> simp [decodeOf]

end Sys2Proof.Machine
end

section
/-! The obligations of errors and of the host protocol, each from the lemmas above. -/

namespace Sys2Proof.Proofs

open Sys2Proof.Machine Sys2Proof.Claims

/-- Settles O52, by induction on the number of steps: each answers a state that allows the next. -/
theorem theBlockNeverStops : Obligations.TheBlockNeverStops := by
  intro k
  induction k with
  | zero => exact fun s hs _ => ⟨s, rfl, hs⟩
  | succ k ih =>
    intro s hs hp
    obtain ⟨t, ht, hinv, hports⟩ := hs.step_answers hp
    rw [run_succ ht]
    exact ih t hinv hports

/-- Settles O54: every event is one of the moves, and each keeps the agreement. -/
theorem hostPhasesMatchTheBlock : Obligations.HostPhasesMatchTheBlock := fun _ _ _ hx h =>
  (Transaction.advance_move h).agrees hx

/-- Settles O37: each effect of a command has its own code, and only a write function compares an echo. -/
theorem everyCommandEndsWithAPossibleCode : Obligations.EveryCommandEndsWithAPossibleCode := by
  intro i s t h
  cases exec_effect h with
  | crcInit | crcUpdate | crcCompute | crcVerify | lengthAnswered | requestLatched | resultCommitted | reset =>
    simp [isResolve, isEncode, isDecode, isAbort, isIllegal, Status.reset]
  | lengthRefused hf | requestRefused hf | decodeOutOfSequence hf | abortOutOfSequence hf | aborted _ hf | illegal hf =>
    simp [isResolve, isEncode, isDecode, isAbort, isIllegal, hf]
  | responseRejected fc rx e p hv hc he =>
    fin_cases he <;> simp [isResolve, isEncode, isDecode, isAbort, isIllegal]
  | echoRejected fc rx p hv hc hw =>
    have hwrite : ∃ r, decodeOf fc rx = .decodeWSC r ∨ decodeOf fc rx = .decodeWSR r ∨ decodeOf fc rx = .decodeWMC r ∨
        decodeOf fc rx = .decodeWMR r := ⟨rx, (isWrite_of_wrongEcho hw).decodeOf_eq rx⟩
    simp [isResolve, isEncode, isDecode, isAbort, isIllegal, hwrite]

/-- Settles O39: the effects that end with a transaction error are the states the rule writes out. -/
theorem transactionErrorsArePrecise : Obligations.TransactionErrorsArePrecise := by
  intro i s t h
  cases exec_effect h with
  | crcInit | crcUpdate | crcCompute | crcVerify | lengthAnswered | requestLatched | resultCommitted | reset =>
    simp [isEncode, isDecode, isAbort]
  | lengthRefused hf | decodeOutOfSequence hf | abortOutOfSequence hf | illegal hf => simp [isEncode, isDecode, isAbort, hf]
  | requestRefused hf =>
    exact ⟨fun _ _ => ⟨_, _, _, freeCtx_valid s.draws, refuseRequest_eq_refused s⟩, by simp [isDecode, hf],
      by simp [isAbort, hf]⟩
  | responseRejected fc rx e p | echoRejected fc rx p =>
    exact ⟨by simp [isEncode], fun _ _ _ => ⟨p, rfl⟩, by simp [isAbort]⟩
  | aborted e hf _ he => exact ⟨by simp [isEncode, hf], by simp [isDecode, hf], fun _ _ => ⟨he, rfl⟩⟩

/-- Settles O40: the four effects with a command-level error write CST, and LENOUT when RESOLVE_LEN refuses. -/
theorem commandErrorsDisturbNoTransaction : Obligations.CommandErrorsDisturbNoTransaction := by
  intro i s t h he
  cases exec_effect h with
  | crcInit | crcUpdate | crcCompute | crcVerify | lengthAnswered | requestLatched | resultCommitted | reset | echoRejected =>
    simp [Status.reset, isResolve] at he
  | requestRefused hf | aborted _ hf => simp [isResolve, hf] at he
  | responseRejected fc rx e p hv hc hmem => fin_cases hmem <;> simp at he
  | lengthRefused hf => exact ⟨s.privAcc, by rw [if_pos (by simp [isResolve, hf])]; rfl⟩
  | decodeOutOfSequence hf => exact ⟨crcInitial, by rw [if_neg (by simp [isResolve, hf])]; rfl⟩
  | abortOutOfSequence hf | illegal hf => exact ⟨s.privAcc, by rw [if_neg (by simp [isResolve, hf])]; rfl⟩

/-- Settles O55: the host can always go on, and the block's DECODE meets the request it still holds. -/
theorem retransmissionRepeatsTheRequest : Obligations.RetransmissionRepeatsTheRequest := by
  refine fun x hx => ⟨fun hp hv => ⟨_, Transaction.retransmit_eq_some.mpr ⟨hp, hv, rfl⟩, rfl, rfl⟩,
    fun f hp => ⟨x.sendAgain, if_pos hp, rfl, rfl⟩, fun hp => ⟨by rw [hp]; rfl, fun rx => ?_⟩⟩
  obtain ⟨t, ht, hj⟩ := hx.decode_judged (by rw [hp]; rfl) rx
  refine ⟨{ x with phase := .awaitingSettle }, { x with phase := .reading }, { x with phase := .validating, rx := rx }, _, t,
    if_pos hp, rfl, rfl, rfl, Transaction.judge_eq_some.mpr ⟨t, ht, rfl⟩, ht, rfl, ?_⟩
  rcases hj with ⟨hphase, -⟩ | ⟨hphase, -⟩ <;> simp [hphase]

/-- Settles O56: both ways, the retry without an ABORT (log entry 17) and the request, are the same ENCODE, which always answers. -/
theorem newEncodeStartsTheTransactionAnew : Obligations.NewEncodeStartsTheTransactionAnew := by
  intro x fc p
  refine ⟨fun f hp => ?_, fun hp => ?_, fun hp => if_pos hp⟩
  · rw [Transaction.advance, if_pos hp]
    exact x.encodeNew_answers fc p
  · rw [Transaction.advance_request hp]
    exact x.encodeNew_answers fc p

end Sys2Proof.Proofs
end
